-- ==== Sys2Proof/Word.lean ====
section
/-! DEFINITION. The bit-vector types of the machine (00_scope.md R9: a byte is 8 bits, `u16` and `u32` are
unsigned integers of that width). Nothing else stands here: the byte-order helpers are in Decode.lean. -/

namespace Sys2Proof

/-- An 8-bit byte: a stream byte, a pixel (palette index), a colour channel, a PCM sample (R9, R35, R34, R36). -/
abbrev Byte := BitVec 8

/-- The `u16` of R9: every two-byte field of the container, a decoding-map word, a skip-map word. -/
abbrev Word16 := BitVec 16

/-- The `u32` of R9: only Timer's `rate` (R96). -/
abbrev Word32 := BitVec 32

end Sys2Proof
end

