-- ==== Sys2Proof/Config.lean ====
section
/-! DEFINITION. The implementation parameters of 00_scope.md R5, and the one open parameter of the spec. -/

namespace Sys2Proof

/-- FD_HDR (R5, R109): bytes of frame data skipped before the map (format 6) or the literals (format 10). -/
def Config.fdHdr : Nat := 14

/-- HDR_BYTES (R5, R90): length of the container header. -/
def Config.hdrBytes : Nat := 25

/-- OFF_BIAS (R5, R111): the bias of the 15-bit offset field. -/
def Config.offBias : Int := 0x4000

/-- KIND_VIDEO (R5, R260): `load` drains packets while the packet kind is below this. -/
def Config.kindVideo : Nat := 3

/-- PAL_ENTRIES (R5, R34). -/
def Config.palEntries : Nat := 256

/-- PAL_BYTES (R5, R34). -/
def Config.palBytes : Nat := 768

/-- SILENCE_SAMPLE (R5, R181, decision D6 of 92_eei_decisions.md). -/
def Config.silenceSample : Byte := 0x80#8

/-- PAL_RESET (R5, R34, R40, decision D9): the palette RAM's content at reset, OPEN in the spec ("a model takes it as
an argument; proofs must not depend on it"). A constant with no body: no proof can see a value of it. Assumption 1. -/
opaque Config.palReset : Nat → Byte

end Sys2Proof
end

