-- ==== Sys2Proof/Syntax.lean ====
section
/-! DEFINITION. The instruction set, whole: one constructor of `Instr` per row of spec/opcode_table.json.

Three instruction streams nest (R1): the opcode records of SRC (15 tags and the illegal row, R92 to R108, R115), the
decoding-map words that the reconstructors read under SendVideo (R110), and the skip flags of format 10 (R112). -/

namespace Sys2Proof

/-- The payload of a record whose format names fields: the fields, or the bytes of a payload that does not have the
size the fields need (R138 for a fixed size; L < 6 of R180 and L < 4 of R155 for the two variable ones). A record of
the second kind is still the opcode its tag names; its meaning raises `BadConfiguration`. -/
inductive Payload (α : Type) where
  | fields (v : α)
  | missized (bytes : List Byte)
deriving DecidableEq, Repr

/-- Timer's operands (R96). -/
structure TimerFields where
  rate : Word32
  subdiv : Word16
deriving DecidableEq, Repr

/-- InitAudio's operands (R97). -/
structure InitAudioFields where
  unk : Word16
  flags : Word16
  sampleRate : Word16
  bufLen : Word16
deriving DecidableEq, Repr

/-- InitVideo's operands (R99). -/
structure InitVideoFields where
  wBlocks : Word16
  hBlocks : Word16
  count : Word16
  trueColor : Word16
deriving DecidableEq, Repr

/-- SendVideo's operands (R101), none of which any rule reads (R33, R220). -/
structure SendVideoFields where
  palStart : Word16
  palCount : Word16
  unk : Word16
deriving DecidableEq, Repr

/-- AudioFrame's operands (R102): `pcm` is the rest of the payload, whose length the meaning compares with `len`. -/
structure AudioFrameFields where
  seq : Word16
  mask : Word16
  len : Word16
  pcm : List Byte
deriving DecidableEq, Repr

/-- AudioSilent's operands (R103). -/
structure AudioSilentFields where
  seq : Word16
  mask : Word16
  len : Word16
deriving DecidableEq, Repr

/-- Palette's operands (R105): `body` is the rest of the payload, the triples and then the padding. -/
structure PaletteFields where
  palStart : Word16
  palCount : Word16
  body : List Byte
deriving DecidableEq, Repr

/-- The instructions. Records carry their payload; a raw `List Byte` is a payload with no field structure. -/
inductive Instr where
  /-- End, tag 0x0000 (R94, R134). -/
  | endStream (payload : List Byte)
  /-- EndPacket, tag 0x0100 (R95, R135). -/
  | endPacket (payload : List Byte)
  /-- Timer, tag 0x0200 (R96, R150). -/
  | timer (payload : Payload TimerFields)
  /-- InitAudio, tag 0x0300 (R97, R151). -/
  | initAudio (payload : Payload InitAudioFields)
  /-- StartAudio, tag 0x0400 (R98, R152). -/
  | startAudio (payload : List Byte)
  /-- InitVideo, tag 0x0502 (R99, R153). -/
  | initVideo (payload : Payload InitVideoFields)
  /-- FrameDataV6, tag 0x0600 (R100, R170). -/
  | frameDataV6 (payload : List Byte)
  /-- SendVideo, tag 0x0701 (R101, R220). -/
  | sendVideo (payload : Payload SendVideoFields)
  /-- AudioFrame, tag 0x0800 (R102, R180). -/
  | audioFrame (payload : Payload AudioFrameFields)
  /-- AudioSilent, tag 0x0900 (R103, R181). -/
  | audioSilent (payload : Payload AudioSilentFields)
  /-- SetMode, tag 0x0A00 (R104, R154). -/
  | setMode (payload : List Byte)
  /-- Palette, tag 0x0C00 (R105, R155). -/
  | palette (payload : Payload PaletteFields)
  /-- SkipMap, tag 0x0E00 (R106, R171). -/
  | skipMap (payload : List Byte)
  /-- DecodingMap, tag 0x0F00 (R107, R172). -/
  | decodingMap (payload : List Byte)
  /-- FrameDataV10, tag 0x1000 (R108, R173). -/
  | frameDataV10 (payload : List Byte)
  /-- Any other tag (R115, R136); the payload is neither read nor skipped, only its length was fetched. -/
  | illegal (payloadLength tag : Word16)
  /-- F6.LIT: format 6, pass 1, word 0x0000 (R225). -/
  | f6Lit
  /-- F6.REF1: format 6, pass 1, any other word (R226). -/
  | f6Ref1 (op : Word16)
  /-- F6.NOP2: format 6, pass 2, word 0x0000 (R228). -/
  | f6Nop2
  /-- F6.INTER: format 6, pass 2, bit 15 set; `v` is the biased offset V (R229). -/
  | f6Inter (v : BitVec 15)
  /-- F6.INTRA: format 6, pass 2, bit 15 clear and word not 0 (R230). -/
  | f6Intra (v : BitVec 15)
  /-- F10.LIT: format 10, pass 1, word 0x0000 (R242). -/
  | f10Lit
  /-- F10.NOP1: format 10, pass 1, any other word (R241). -/
  | f10Nop1 (op : Word16)
  /-- F10.NOP2: format 10, pass 2, word 0x0000 (R243). -/
  | f10Nop2
  /-- F10.CUR: format 10, pass 2, bit 15 clear and word not 0 (R244). -/
  | f10Cur (v : BitVec 15)
  /-- F10.PREV: format 10, pass 2, bit 15 set (R245). -/
  | f10Prev (v : BitVec 15)
  /-- SKIP.S: a 0 flag of the skip map (R112, R212). -/
  | skipS
  /-- SKIP.N: a 1 flag of the skip map (R112, R212). -/
  | skipN
  /-- F10.SHOW: a 1 flag in pass 3 of format 10 (R246). -/
  | f10Show
deriving DecidableEq, Repr

/-- What an instruction's bits are, by stream: the bytes of a record, a 16-bit decoding-map word, one skip flag. -/
inductive Code where
  | record (bytes : List Byte)
  | word (op : Word16)
  | flag (bit : Bool)
deriving DecidableEq, Repr

/-- Which instruction stream is being read: R110 makes a map word's operation depend on the format and the pass. -/
inductive Context where
  | stream
  | f6Pass1
  | f6Pass2
  | f10Pass1
  | f10Pass2
  | skipFlag
  | showFlag
deriving DecidableEq, Repr

/-- The 15 opcodes of R93. -/
inductive Opcode where
  | endStream | endPacket | timer | initAudio | startAudio | initVideo | frameDataV6 | sendVideo
  | audioFrame | audioSilent | setMode | palette | skipMap | decodingMap | frameDataV10
deriving DecidableEq, Repr

end Sys2Proof
end

