-- ==== Sys2Proof/Machine/State.lean ====
section
/-! DEFINITION. The state of the machine (10_state.md), the fault codes it latches (60_exceptions.md R281), the reasons
for which a step of the model stops, and the state after reset (R40). State is plain data. -/

namespace Sys2Proof.Machine

/-- The six fault codes (R25, R281). ERR = None is the absence of a code. -/
inductive ErrCode where
  | invalidSignature
  | truncated
  | unknownOpcode
  | badConfiguration
  | mapExhausted
  | offsetOutOfBounds
deriving DecidableEq, Repr

/-- Why the machine has no next step. The six fault codes of the spec are NOT here: raising one is a step that latches
ERR (R288). -/
inductive Fault where
  /-- Raised by `step`: the precondition of R132 fails (LOADED = 0, DONE = 1 or ERR is not None), so no step is enabled
  and the engine is idle until the next host command. Safe: the model stops where the machine does not step.
  Assumption 5. -/
  | stepNotEnabled
  /-- Raised by the memory operations: an access outside the length of a surface (R10 requires every access to lie inside
  it). No run reaches it (`State.Inv` excludes it). Safe: the model stops. Assumption 6. -/
  | outsideSpace
deriving DecidableEq, Repr

/-- Why an instruction has no meaning in a state. -/
inductive Refusal where
  /-- The instruction has no meaning yet. Safe: the model stops. -/
  | notModelled (mnemonic : String)
  /-- Raised by the second-level instructions outside the pass that defines them: R110 gives a map word, and R112 a skip
  flag, a meaning only in a pass of a SendVideo, at a block of the grid. No fetch produces such a pair. Safe: the model
  stops. Assumption 8. -/
  | notInPass
deriving DecidableEq, Repr

/-- FMT, the pending format (R32). -/
inductive Format where
  | none
  | v6
  | v10
deriving DecidableEq, Repr

/-- A byte-addressed space that instructions write piecewise: its length, and the bytes that are not 0x00 in strictly
rising order of address. A byte of the space that is not listed reads as 0x00, which is what InitVideo fills the
surfaces with (R35, R153). Assumption 2. -/
structure Memory where
  len : Nat
  cells : List Host.Cell
deriving DecidableEq, Repr

/-- The canonical form: equal memories are equal data. -/
abbrev Memory.wf (m : Memory) : Prop :=
  m.cells.Pairwise (fun c d => c.1 < d.1) ∧ ∀ c ∈ m.cells, c.2 ≠ 0#8 ∧ c.1 < m.len

/-- A space of `n` bytes of 0x00. -/
def Memory.zero (n : Nat) : Memory := { len := n, cells := [] }

/-- The three surfaces (R35): current output, previous reference, older reference. -/
structure Surfaces where
  f : Memory
  r0 : Memory
  r1 : Memory
deriving DecidableEq, Repr

/-- The surface a block copy reads or writes. -/
inductive Role where
  | f
  | r0
  | r1
deriving DecidableEq, Repr

/-- The skip-map bitstream decoder's state (R38, R210): SK_POS, SK_WORD, SK_BITS. -/
structure SkipStream where
  pos : Nat
  word : Word16
  bits : Nat
deriving DecidableEq, Repr

/-- R211: `reset`. -/
def SkipStream.reset : SkipStream := { pos := 0, word := 0, bits := 0 }

/-- The passes of the two reconstructors (R224, R227, R241, R243, R246). -/
inductive Pass where
  | f6Pass1
  | f6Pass2
  | f10Pass1
  | f10Pass2
  | f10Pass3
deriving DecidableEq, Repr

/-- A SendVideo in progress: the incremented frame number (R220), the working copies (R221), the transient cursors (R22)
and the skip stream (R38). `wordDue` says that the block's skip flag was 1 and its map word is to be read next. None of
it survives the step (R22). Assumption 7. -/
structure Recon where
  pass : Pass
  fn : Int
  b : Nat
  mc : Nat
  lc : Nat
  wordDue : Bool
  skip : SkipStream
  surf : Surfaces
deriving DecidableEq, Repr

/-- Everything the spec gives the machine (10_state.md), one field per item of R40, and the bound source (R37). -/
structure State where
  /-- SRC, the bound byte source; none until `load` (R37, R40). Assumption 4. -/
  src : Option (List Byte)
  /-- CUR, the stream cursor (R21). -/
  cur : Nat
  /-- DONE (R23). -/
  done : Bool
  /-- PAL_DIRTY (R24). -/
  palDirty : Bool
  /-- ERR (R25); `none` is the code None. -/
  err : Option ErrCode
  /-- LOADED (R26). -/
  loaded : Bool
  /-- PKT_LEN (R27). -/
  pktLen : Word16
  /-- PKT_KIND (R27). -/
  pktKind : Word16
  /-- FRAME_NO (R28). -/
  frameNo : Int
  /-- VID_INIT (R29). -/
  vidInit : Bool
  /-- W_BLK (R29). -/
  wBlk : Word16
  /-- H_BLK (R29). -/
  hBlk : Word16
  /-- VID_COUNT (R29). -/
  vidCount : Word16
  /-- VID_TRUECOLOR (R29). -/
  vidTrueColor : Word16
  /-- TMR_SET (R30). -/
  tmrSet : Bool
  /-- TMR_RATE (R30). -/
  tmrRate : Word32
  /-- TMR_SUBDIV (R30). -/
  tmrSubdiv : Word16
  /-- AUD_INIT (R31). -/
  audInit : Bool
  /-- AUD_UNK (R31). -/
  audUnk : Word16
  /-- AUD_FLAGS (R31). -/
  audFlags : Word16
  /-- AUD_RATE (R31). -/
  audRate : Word16
  /-- AUD_BUFLEN (R31). -/
  audBufLen : Word16
  /-- FMT (R32). -/
  fmt : Format
  /-- FD, the frame data buffer (R39). -/
  fd : List Byte
  /-- SM, the skip map buffer (R39). -/
  sm : List Byte
  /-- DM, the decoding map buffer (R39). -/
  dm : List Byte
  /-- PAL, the palette RAM, 768 bytes (R34). -/
  pal : List Byte
  /-- F, R0, R1 (R35). -/
  surf : Surfaces
  /-- AUD_OUT, everything queued since reset, oldest first (R36). -/
  audOut : List (List Byte)
  /-- The SendVideo in progress (R22, R38); none between steps. -/
  recon : Option Recon
deriving DecidableEq, Repr

/-- The table of R40. PAL holds PAL_RESET, the open parameter (decision D9); the surfaces do not exist (length 0). -/
def State.reset : State where
  src := none
  cur := 0
  done := false
  palDirty := false
  err := none
  loaded := false
  pktLen := 0
  pktKind := 0
  frameNo := -1
  vidInit := false
  wBlk := 0
  hBlk := 0
  vidCount := 0
  vidTrueColor := 0
  tmrSet := false
  tmrRate := 0
  tmrSubdiv := 0
  audInit := false
  audUnk := 0
  audFlags := 0
  audRate := 0
  audBufLen := 0
  fmt := .none
  fd := []
  sm := []
  dm := []
  pal := (List.range Config.palBytes).map Config.palReset
  surf := ⟨.zero 0, .zero 0, .zero 0⟩
  audOut := []
  recon := none

end Sys2Proof.Machine
end

