-- ==== Sys2Proof/Machine/Flags.lean ====
section
/-! DEFINITION. The flags (10_state.md, section 3): who sets and who clears DONE, PAL_DIRTY and ERR. The machine has no
other flag, and no opcode writes one as a side effect of a result (R20, R23). -/

namespace Sys2Proof.Machine

/-- R23: DONE ← 1, by End and by nothing else. -/
def State.setDone (s : State) : State := { s with done := true }

/-- R24: PAL_DIRTY ← 1, by every Palette. -/
def State.setPalDirty (s : State) : State := { s with palDirty := true }

/-- R263: PAL_DIRTY ← 0, by the host. -/
def State.clearPalDirty (s : State) : State := { s with palDirty := false }

/-- R288: ERR ← c. -/
def State.latch (s : State) (c : ErrCode) : State := { s with err := some c }

end Sys2Proof.Machine
end

