-- ==== Sys2Proof/Decode.lean ====
section
/-! DEFINITION. Decoding (total, rejecting by name) and encoding of the three instruction streams, from 30_encoding.md,
with the byte-order helpers of 00_scope.md R11 and 20_memory.md R62. -/

namespace Sys2Proof

/-! ### Byte order -/

/-- R11: an unsigned 16-bit number from its low and its high byte. -/
def u16 (lo hi : Byte) : Word16 := BitVec.ofNat 16 (lo.toNat + hi.toNat * 256)

/-- R11: an unsigned 32-bit number from its four bytes, lowest first. -/
def u32 (b0 b1 b2 b3 : Byte) : Word32 :=
  BitVec.ofNat 32 (b0.toNat + b1.toNat * 256 + b2.toNat * 65536 + b3.toNat * 16777216)

/-- Bits 7:0 of a 16-bit number. -/
def lo8 (w : Word16) : Byte := BitVec.ofNat 8 w.toNat

/-- Bits 15:8 of a 16-bit number. -/
def hi8 (w : Word16) : Byte := BitVec.ofNat 8 (w.toNat / 256)

/-- Bits 8k+7 : 8k of a 32-bit number. -/
def byte32 (k : Nat) (w : Word32) : Byte := BitVec.ofNat 8 (w.toNat / 256 ^ k)

/-- R11 `U16LE(X, a)`; the caller has established that both bytes exist (R10). -/
def u16LE (x : List Byte) (a : Nat) : Word16 := u16 (x.getD a 0) (x.getD (a + 1) 0)

/-- R11 `U16BE(X, a)`: the byte order of the opcode tag, and of nothing else (R62). -/
def u16BE (x : List Byte) (a : Nat) : Word16 := u16 (x.getD (a + 1) 0) (x.getD a 0)

/-- The two bytes of a 16-bit number, little-endian (R62). -/
def bytesLE (w : Word16) : List Byte := [lo8 w, hi8 w]

/-- The two bytes of a 16-bit number, big-endian (R62: the opcode tag). -/
def bytesBE (w : Word16) : List Byte := [hi8 w, lo8 w]

/-- The four bytes of a 32-bit number, little-endian (R62). -/
def bytesLE32 (w : Word32) : List Byte := [byte32 0 w, byte32 1 w, byte32 2 w, byte32 3 w]

/-! ### The opcode map (R93) -/

/-- R93: the tag of each opcode. -/
def Opcode.tag : Opcode → Word16
  | .endStream => 0x0000#16
  | .endPacket => 0x0100#16
  | .timer => 0x0200#16
  | .initAudio => 0x0300#16
  | .startAudio => 0x0400#16
  | .initVideo => 0x0502#16
  | .frameDataV6 => 0x0600#16
  | .sendVideo => 0x0701#16
  | .audioFrame => 0x0800#16
  | .audioSilent => 0x0900#16
  | .setMode => 0x0A00#16
  | .palette => 0x0C00#16
  | .skipMap => 0x0E00#16
  | .decodingMap => 0x0F00#16
  | .frameDataV10 => 0x1000#16

/-- The opcodes in the table's order. -/
def Opcode.all : List Opcode :=
  [.endStream, .endPacket, .timer, .initAudio, .startAudio, .initVideo, .frameDataV6, .sendVideo,
    .audioFrame, .audioSilent, .setMode, .palette, .skipMap, .decodingMap, .frameDataV10]

/-- R93: "A tag selects an opcode by equality on all 16 bits"; R115: every other tag is illegal. -/
def Opcode.ofTag (tag : Word16) : Option Opcode := Opcode.all.find? fun op => op.tag == tag

/-! ### Payload formats (R94 to R108) -/

/-- R96. -/
def decodeTimer : List Byte → Payload TimerFields
  | [r0, r1, r2, r3, s0, s1] => .fields ⟨u32 r0 r1 r2 r3, u16 s0 s1⟩
  | p => .missized p

/-- R97. -/
def decodeInitAudio : List Byte → Payload InitAudioFields
  | [a0, a1, b0, b1, c0, c1, d0, d1] => .fields ⟨u16 a0 a1, u16 b0 b1, u16 c0 c1, u16 d0 d1⟩
  | p => .missized p

/-- R99. -/
def decodeInitVideo : List Byte → Payload InitVideoFields
  | [a0, a1, b0, b1, c0, c1, d0, d1] => .fields ⟨u16 a0 a1, u16 b0 b1, u16 c0 c1, u16 d0 d1⟩
  | p => .missized p

/-- R101. -/
def decodeSendVideo : List Byte → Payload SendVideoFields
  | [a0, a1, b0, b1, c0, c1] => .fields ⟨u16 a0 a1, u16 b0 b1, u16 c0 c1⟩
  | p => .missized p

/-- R102: three fields, then the samples. -/
def decodeAudioFrame : List Byte → Payload AudioFrameFields
  | a0 :: a1 :: b0 :: b1 :: c0 :: c1 :: pcm => .fields ⟨u16 a0 a1, u16 b0 b1, u16 c0 c1, pcm⟩
  | p => .missized p

/-- R103. -/
def decodeAudioSilent : List Byte → Payload AudioSilentFields
  | [a0, a1, b0, b1, c0, c1] => .fields ⟨u16 a0 a1, u16 b0 b1, u16 c0 c1⟩
  | p => .missized p

/-- R105: two fields, then the triples and the padding. -/
def decodePalette : List Byte → Payload PaletteFields
  | a0 :: a1 :: b0 :: b1 :: body => .fields ⟨u16 a0 a1, u16 b0 b1, body⟩
  | p => .missized p

/-- The instruction of an opcode with its payload window (R132, R133). -/
def Opcode.instr (op : Opcode) (p : List Byte) : Instr :=
  match op with
  | .endStream => .endStream p
  | .endPacket => .endPacket p
  | .timer => .timer (decodeTimer p)
  | .initAudio => .initAudio (decodeInitAudio p)
  | .startAudio => .startAudio p
  | .initVideo => .initVideo (decodeInitVideo p)
  | .frameDataV6 => .frameDataV6 p
  | .sendVideo => .sendVideo (decodeSendVideo p)
  | .audioFrame => .audioFrame (decodeAudioFrame p)
  | .audioSilent => .audioSilent (decodeAudioSilent p)
  | .setMode => .setMode p
  | .palette => .palette (decodePalette p)
  | .skipMap => .skipMap p
  | .decodingMap => .decodingMap p
  | .frameDataV10 => .frameDataV10 p

/-! ### Decoding -/

/-- Why bits are no instruction. -/
inductive DecodeError where
  /-- R132 check 1: fewer than the 4 bytes of a record header. -/
  | shortHeader
  /-- R132 check 3: fewer than payloadLength bytes after the header. -/
  | shortPayload
  /-- Bits of one stream offered to the decoder of another: no such reading exists. -/
  | wrongStream
deriving DecidableEq, Repr

/-- R132 checks 1 to 3 in their order (R300): the record header, the tag, then the payload. What follows the record is
not looked at. -/
def decodeRecord : List Byte → Except DecodeError Instr
  | l0 :: l1 :: t0 :: t1 :: rest =>
    let len := u16 l0 l1
    let tag := u16 t1 t0
    match Opcode.ofTag tag with
    | none => .ok (.illegal len tag)
    | some op =>
      if rest.length < len.toNat then .error .shortPayload
      else .ok (op.instr (rest.take len.toNat))
  | _ => .error .shortHeader

/-- R110: V, bits 14:0 of a decoding-map word. -/
def biasedOffset (op : Word16) : BitVec 15 := BitVec.ofNat 15 op.toNat

/-- R110: S, bit 15 of a decoding-map word. -/
def sourceSelect (op : Word16) : Bool := 0x8000 ≤ op.toNat

/-- R110, format 6, pass 1. -/
def decodeF6Pass1 (op : Word16) : Instr :=
  if op = 0 then .f6Lit else .f6Ref1 op

/-- R110, format 6, pass 2. -/
def decodeF6Pass2 (op : Word16) : Instr :=
  if op = 0 then .f6Nop2
  else if sourceSelect op then .f6Inter (biasedOffset op) else .f6Intra (biasedOffset op)

/-- R110, format 10, pass 1. -/
def decodeF10Pass1 (op : Word16) : Instr :=
  if op = 0 then .f10Lit else .f10Nop1 op

/-- R110, format 10, pass 2. -/
def decodeF10Pass2 (op : Word16) : Instr :=
  if op = 0 then .f10Nop2
  else if sourceSelect op then .f10Prev (biasedOffset op) else .f10Cur (biasedOffset op)

/-- R112: a flag of the skip map, as passes 1 and 2 read it. -/
def decodeSkipFlag (bit : Bool) : Instr := if bit then .skipN else .skipS

/-- R246: a flag of the skip map, as pass 3 reads it. -/
def decodeShowFlag (bit : Bool) : Instr := if bit then .f10Show else .skipS

/-- The decoder of each instruction stream. -/
def decode (ctx : Context) (c : Code) : Except DecodeError Instr :=
  match ctx, c with
  | .stream, .record bytes => decodeRecord bytes
  | .f6Pass1, .word op => .ok (decodeF6Pass1 op)
  | .f6Pass2, .word op => .ok (decodeF6Pass2 op)
  | .f10Pass1, .word op => .ok (decodeF10Pass1 op)
  | .f10Pass2, .word op => .ok (decodeF10Pass2 op)
  | .skipFlag, .flag bit => .ok (decodeSkipFlag bit)
  | .showFlag, .flag bit => .ok (decodeShowFlag bit)
  | _, _ => .error .wrongStream

/-! ### Encoding -/

/-- R92: payloadLength little-endian, tag big-endian, payload. -/
def encodeRecord (op : Opcode) (p : List Byte) : Code :=
  .record (bytesLE (BitVec.ofNat 16 p.length) ++ bytesBE op.tag ++ p)

/-- The bytes of a payload: its fields' bytes by `f`, or the bytes it has. -/
def Payload.bytes {α : Type} (f : α → List Byte) : Payload α → List Byte
  | .fields v => f v
  | .missized p => p

/-- R96. -/
def TimerFields.bytes (v : TimerFields) : List Byte := bytesLE32 v.rate ++ bytesLE v.subdiv

/-- R97. -/
def InitAudioFields.bytes (v : InitAudioFields) : List Byte :=
  bytesLE v.unk ++ bytesLE v.flags ++ bytesLE v.sampleRate ++ bytesLE v.bufLen

/-- R99. -/
def InitVideoFields.bytes (v : InitVideoFields) : List Byte :=
  bytesLE v.wBlocks ++ bytesLE v.hBlocks ++ bytesLE v.count ++ bytesLE v.trueColor

/-- R101. -/
def SendVideoFields.bytes (v : SendVideoFields) : List Byte :=
  bytesLE v.palStart ++ bytesLE v.palCount ++ bytesLE v.unk

/-- R102. -/
def AudioFrameFields.bytes (v : AudioFrameFields) : List Byte :=
  bytesLE v.seq ++ bytesLE v.mask ++ bytesLE v.len ++ v.pcm

/-- R103. -/
def AudioSilentFields.bytes (v : AudioSilentFields) : List Byte :=
  bytesLE v.seq ++ bytesLE v.mask ++ bytesLE v.len

/-- R105. -/
def PaletteFields.bytes (v : PaletteFields) : List Byte :=
  bytesLE v.palStart ++ bytesLE v.palCount ++ v.body

/-- R110, R120: the word with source select `s` and biased offset `v`. -/
def mapWordOf (s : Bool) (v : BitVec 15) : Word16 := BitVec.ofNat 16 ((if s then 0x8000 else 0) + v.toNat)

/-- The bits of an instruction, from the same tables as `decode`. -/
def encode : Instr → Code
  | .endStream p => encodeRecord .endStream p
  | .endPacket p => encodeRecord .endPacket p
  | .timer p => encodeRecord .timer (p.bytes TimerFields.bytes)
  | .initAudio p => encodeRecord .initAudio (p.bytes InitAudioFields.bytes)
  | .startAudio p => encodeRecord .startAudio p
  | .initVideo p => encodeRecord .initVideo (p.bytes InitVideoFields.bytes)
  | .frameDataV6 p => encodeRecord .frameDataV6 p
  | .sendVideo p => encodeRecord .sendVideo (p.bytes SendVideoFields.bytes)
  | .audioFrame p => encodeRecord .audioFrame (p.bytes AudioFrameFields.bytes)
  | .audioSilent p => encodeRecord .audioSilent (p.bytes AudioSilentFields.bytes)
  | .setMode p => encodeRecord .setMode p
  | .palette p => encodeRecord .palette (p.bytes PaletteFields.bytes)
  | .skipMap p => encodeRecord .skipMap p
  | .decodingMap p => encodeRecord .decodingMap p
  | .frameDataV10 p => encodeRecord .frameDataV10 p
  | .illegal len tag => .record (bytesLE len ++ bytesBE tag)
  | .f6Lit => .word 0
  | .f6Ref1 op => .word op
  | .f6Nop2 => .word 0
  | .f6Inter v => .word (mapWordOf true v)
  | .f6Intra v => .word (mapWordOf false v)
  | .f10Lit => .word 0
  | .f10Nop1 op => .word op
  | .f10Nop2 => .word 0
  | .f10Cur v => .word (mapWordOf false v)
  | .f10Prev v => .word (mapWordOf true v)
  | .skipS => .flag false
  | .skipN => .flag true
  | .f10Show => .flag true

/-- The stream an instruction belongs to (the `format` column of spec/opcode_table.json). -/
def Instr.context : Instr → Context
  | .endStream _ => .stream
  | .endPacket _ => .stream
  | .timer _ => .stream
  | .initAudio _ => .stream
  | .startAudio _ => .stream
  | .initVideo _ => .stream
  | .frameDataV6 _ => .stream
  | .sendVideo _ => .stream
  | .audioFrame _ => .stream
  | .audioSilent _ => .stream
  | .setMode _ => .stream
  | .palette _ => .stream
  | .skipMap _ => .stream
  | .decodingMap _ => .stream
  | .frameDataV10 _ => .stream
  | .illegal _ _ => .stream
  | .f6Lit => .f6Pass1
  | .f6Ref1 _ => .f6Pass1
  | .f6Nop2 => .f6Pass2
  | .f6Inter _ => .f6Pass2
  | .f6Intra _ => .f6Pass2
  | .f10Lit => .f10Pass1
  | .f10Nop1 _ => .f10Pass1
  | .f10Nop2 => .f10Pass2
  | .f10Cur _ => .f10Pass2
  | .f10Prev _ => .f10Pass2
  | .skipS => .skipFlag
  | .skipN => .skipFlag
  | .f10Show => .showFlag

/-! ### Words numbered as the opcode table numbers them -/

/-- How the bits of a table row are laid out: a record's tag in bits 15..0 and its payloadLength in bits 31..16 (the
`encoding` column); a decoding-map word of format 6 pass 2; one skip flag. Assumption 9. -/
inductive TableWord where
  | record (bytes : List Byte)
  | mapWord (op : Word16)
  | skipFlag (bit : Bool)
deriving DecidableEq, Repr

/-- The layout of a table word of `nbits` bits. A row of 8 bits is a skip flag; a row of 16 bits whose number is no
legal tag is a decoding-map word; any other row is a record, with every bit the table does not give 0. Assumption 9. -/
def tableWord (nbits w : Nat) : TableWord :=
  let tag : Word16 := BitVec.ofNat 16 w
  let len : Word16 := BitVec.ofNat 16 (w / 65536)
  if nbits ≤ 8 then .skipFlag (w % 2 == 1)
  else if nbits ≤ 16 && (Opcode.ofTag tag).isNone then .mapWord tag
  else .record (bytesLE len ++ bytesBE tag ++ List.replicate (len.toNat + 4) 0)

/-- What the decoder reads from a table word. -/
def decodeTableWord (nbits w : Nat) : Option Instr :=
  match tableWord nbits w with
  | .record bytes => (decode .stream (.record bytes)).toOption
  | .mapWord op => (decode .f6Pass2 (.word op)).toOption
  | .skipFlag bit => (decode .skipFlag (.flag bit)).toOption

end Sys2Proof
end

