-- ==== Sys2Proof/Machine/Memory.lean ====
section
/-! DEFINITION. The named operations over the byte spaces (00_scope.md R10, R11; 20_memory.md): one byte, runs of
bytes, and the whole-surface copy. -/

namespace Sys2Proof.Machine

/-- Why a rule of the spec does not complete: it raises a fault code (R12), or it would access a space outside its
length (R10), which is the model's own stop. -/
inductive Stop where
  | raised (c : ErrCode)
  | stopped (f : Fault)
deriving DecidableEq, Repr

/-- What a rule of the spec answers inside a step. -/
abbrev Res (α : Type) := Except Stop α

/-- `raise c` inside a rule (R12). -/
def raised {α : Type} (c : ErrCode) : Res α := .error (.raised c)

/-- The byte at address `a` among the listed cells; 0x00 when it is not listed. -/
def cellAt (cells : List Host.Cell) (a : Nat) : Byte :=
  match cells with
  | [] => 0#8
  | (b, v) :: rest => if a = b then v else cellAt rest a

/-- The listed cells after the byte at `a` becomes `v`, in canonical form. -/
def putCell (cells : List Host.Cell) (a : Nat) (v : Byte) : List Host.Cell :=
  match cells with
  | [] => if v = 0#8 then [] else [(a, v)]
  | (b, w) :: rest =>
    if a < b then (if v = 0#8 then (b, w) :: rest else (a, v) :: (b, w) :: rest)
    else if a = b then (if v = 0#8 then rest else (a, v) :: rest)
    else (b, w) :: putCell rest a v

/-- X[a] (R10): the byte at address `a` of the space. -/
def Memory.byte (m : Memory) (a : Nat) : Byte := cellAt m.cells a

/-- The listed cells after the bytes `vs` are stored at `a`, `a + 1`, … in that order. -/
def putCells (cells : List Host.Cell) (a : Nat) : List Byte → List Host.Cell
  | [] => cells
  | v :: vs => putCells (putCell cells a v) (a + 1) vs

/-- `MemRead(X, a, n)` (R10). -/
def Memory.read (m : Memory) (a n : Nat) : Res (List Byte) :=
  if a + n ≤ m.len then .ok ((List.range n).map fun i => m.byte (a + i))
  else .error (.stopped .outsideSpace)

/-- `MemWrite(X, a, n, v)` (R10), n being the number of bytes given. -/
def Memory.write (m : Memory) (a : Nat) (vs : List Byte) : Res Memory :=
  if a + vs.length ≤ m.len then .ok { m with cells := putCells m.cells a vs }
  else .error (.stopped .outsideSpace)

/-- `MemWrite(dst, 0, n, MemRead(src, 0, n))` (R196), as one operation on the listed cells. -/
def Memory.copyFirst (dst src : Memory) (n : Nat) : Res Memory :=
  if n ≤ dst.len ∧ n ≤ src.len then
    .ok { dst with cells := src.cells.filter (fun c => c.1 < n) ++ dst.cells.filter (fun c => n ≤ c.1) }
  else .error (.stopped .outsideSpace)

/-- The surface of a role. -/
def Surfaces.get (x : Surfaces) : Role → Memory
  | .f => x.f
  | .r0 => x.r0
  | .r1 => x.r1

/-- The surfaces with one of them replaced. -/
def Surfaces.set (x : Surfaces) (m : Memory) : Role → Surfaces
  | .f => { x with f := m }
  | .r0 => { x with r0 := m }
  | .r1 => { x with r1 := m }

/-- `MemRead(X, a, n)` (R10) of a byte sequence (SRC, FD, SM, DM); the caller has established that the bytes exist. -/
def bytesAt (x : List Byte) (a n : Nat) : List Byte := (x.drop a).take n

end Sys2Proof.Machine
end

