-- ==== Sys2Proof/Machine/Operands.lean ====
section
/-! DEFINITION. Operand computations: the geometry (10_state.md R29), the offset and palette immediates
(30_encoding.md R111, R113), the anchor and bounds rules (44_block_copy_engine.md R190, R193, R198), and the reads of
the second-level instruction memories (46 R222, 47 R240, 45 R212). -/

namespace Sys2Proof.Machine

/-- W (R29): the width in pixels, which is also the row pitch (R74). -/
def State.width (s : State) : Nat := 8 * s.wBlk.toNat

/-- H (R29): the height in pixels. -/
def State.height (s : State) : Nat := 8 * s.hBlk.toNat

/-- N (R29): the number of blocks. -/
def State.blocks (s : State) : Nat := s.wBlk.toNat * s.hBlk.toNat

/-- R111: the signed offset of a biased 15-bit field, in −16384 .. 16383. -/
def offsetOf (v : BitVec 15) : Int := (v.toNat : Int) - Config.offBias

/-- R113: a palette source byte as stored, `((c << 2) | c) & 0xFF`. -/
def expandChannel (c : Byte) : Byte := BitVec.ofNat 8 (((c.toNat <<< 2) ||| c.toNat) &&& 0xFF)

/-- R190: the linear address of the top-left pixel of block `b`. -/
def State.anchor (s : State) (b : Nat) : Nat :=
  8 * (b / s.wBlk.toNat) * s.width + 8 * (b % s.wBlk.toNat)

/-- R198: the linear address of the source region of an offset copy, before the bounds check. -/
def State.sourceAddr (s : State) (b : Nat) (off : Int) : Int := (s.anchor b : Int) + off

/-- R193, with floor division. -/
def State.inBounds (s : State) (a : Int) : Bool :=
  0 ≤ a && a % (s.width : Int) + 8 ≤ (s.width : Int) && a / (s.width : Int) + 8 ≤ (s.height : Int)

/-- A decoding-map word at byte offset `mc` of its buffer: FD in format 6 (R222), DM in format 10 (R240). -/
def mapWordAt (buf : List Byte) (mc : Nat) : Res Word16 :=
  if mc + 2 > buf.length then raised .mapExhausted else .ok (u16LE buf mc)

/-- R222 `mapword6(b)`. -/
def mapWord6 (fd : List Byte) (b : Nat) : Res Word16 := mapWordAt fd (Config.fdHdr + 2 * b)

/-- R212 `skip()`: whether the block is skipped, and the skip stream after the flag is delivered. -/
def SkipStream.next (sm : List Byte) (k : SkipStream) : Res (Bool × SkipStream) :=
  if k.bits = 0 then
    if 2 * k.pos + 2 > sm.length then raised .mapExhausted
    else
      let w := u16LE sm (2 * k.pos)
      .ok (w.toNat % 2 == 0, { pos := k.pos + 1, word := w >>> 1, bits := 15 })
  else .ok (k.word.toNat % 2 == 0, { k with word := k.word >>> 1, bits := k.bits - 1 })

/-- R215: the flag of block `j` in closed form. -/
def skippedAt (sm : List Byte) (j : Nat) : Bool := !(u16LE sm (2 * (j / 16))).getLsbD (j % 16)

/-- R114: the frame rate of a Timer, an exact rational. -/
def frameRateOf (rate : Word32) (subdiv : Word16) : Rat := 1000000 / ((rate.toNat * subdiv.toNat : Nat) : Rat)

/-- R281: the encoding of ERR. -/
def errValue : Option ErrCode → Nat
  | none => 0
  | some .invalidSignature => 1
  | some .truncated => 2
  | some .unknownOpcode => 3
  | some .badConfiguration => 4
  | some .mapExhausted => 5
  | some .offsetOutOfBounds => 6

end Sys2Proof.Machine
end

