-- ==== Sys2Proof/Machine/Ops.lean ====
section
/-! DEFINITION. The operations the meanings share: taking a fault (60_exceptions.md R288; there is no return from one,
R290), moving past a record (40_stream_framing.md R133), the packet header (R131), and how a second-level instruction
acts on the SendVideo in progress (10_state.md R22, R38). -/

namespace Sys2Proof.Machine

/-- What a step answers. -/
abbrev Answer := Host.Outcome State Fault Refusal

/-- R12, R288, R289: fault entry. ERR latches the code; nothing else of the state changes, and a SendVideo in progress is
discarded with its working copies (R221). -/
def State.raise (s : State) (c : ErrCode) : State := { s.latch c with recon := none }

/-- The answer of a rule that ends in `raise c`: taking the fault is a step. -/
def raiseIn (s : State) (c : ErrCode) : Answer := .next (s.raise c)

/-- R133: CUR moves past a record of `n` payload bytes. -/
def State.retire (s : State) (n : Nat) : State := { s with cur := s.cur + 4 + n }

/-- The bytes of the bound source; none are bound before `load`. -/
def State.source (s : State) : List Byte := s.src.getD []

/-- R131 `ReadPacketHeader` at address `a`. -/
def readPacketHeader (s : State) (a : Nat) : Except ErrCode State :=
  if a + 4 > s.source.length then .error .truncated
  else .ok { s with pktLen := u16LE s.source a, pktKind := u16LE s.source (a + 2), cur := a + 4 }

/-- The skip flag, map word or pass-3 flag that a SendVideo in progress reads next. -/
def Recon.context (r : Recon) : Context :=
  match r.pass with
  | .f6Pass1 => .f6Pass1
  | .f6Pass2 => .f6Pass2
  | .f10Pass1 => if r.wordDue then .f10Pass1 else .skipFlag
  | .f10Pass2 => if r.wordDue then .f10Pass2 else .skipFlag
  | .f10Pass3 => .showFlag

/-- How a second-level instruction acts on the machine: on the SendVideo in progress, at a block of the grid, in a pass
that reads the instruction's stream; a fault it raises is taken as a record's is (R288). Assumptions 7 and 8. -/
def onBlock (ctx : List Context) (op : State → Recon → Res Recon) (s : State) : Answer :=
  match s.recon with
  | none => .refused .notInPass
  | some r =>
    if r.context ∈ ctx ∧ r.b < s.blocks then
      match op s r with
      | .ok r' => .next { s with recon := some r' }
      | .error (.raised c) => raiseIn s c
      | .error (.stopped f) => .fault f
    else .refused .notInPass

/-- The block's map word is done with: the map cursor moves past it and the pass goes on to the next block (R222, R240). -/
def Recon.nextWord (r : Recon) : Recon := { r with b := r.b + 1, mc := r.mc + 2, wordDue := false }

/-- The block is done with in a pass that reads no map word for it (R241, R243, R246). -/
def Recon.nextBlock (r : Recon) : Recon := { r with b := r.b + 1, wordDue := false }

end Sys2Proof.Machine
end

