-- ==== Sys2Proof/Machine/AudioOps.lean ====
section
/-! DEFINITION. The audio opcodes (43_audio_opcodes.md): each appends one buffer to AUD_OUT. -/

namespace Sys2Proof.Machine

/-- One more buffer on the output queue (R36, R77). -/
def State.enqueue (s : State) (buf : List Byte) : State := { s with audOut := s.audOut ++ [buf] }

/-- R180: AudioFrame. The payload length L is 6 + `pcm.length`. -/
def execAudioFrame (p : Payload AudioFrameFields) (s : State) : Answer :=
  match p with
  | .missized _ => raiseIn s .badConfiguration
  | .fields v =>
    if s.audInit = false then raiseIn s .badConfiguration
    else if v.pcm.length ≠ v.len.toNat then raiseIn s .badConfiguration
    else .next ((s.retire (6 + v.pcm.length)).enqueue v.pcm)

/-- R181, R138: AudioSilent. -/
def execAudioSilent (p : Payload AudioSilentFields) (s : State) : Answer :=
  match p with
  | .missized _ => raiseIn s .badConfiguration
  | .fields v =>
    if s.audInit = false then raiseIn s .badConfiguration
    else .next ((s.retire 6).enqueue (List.replicate v.len.toNat Config.silenceSample))

end Sys2Proof.Machine
end

