-- ==== Sys2Proof/Machine/BufferOps.lean ====
section
/-! DEFINITION. The buffer opcodes (42_buffer_opcodes.md): each replaces its buffer whole with the payload. -/

namespace Sys2Proof.Machine

/-- R170: FrameDataV6. -/
def execFrameDataV6 (p : List Byte) (s : State) : Answer :=
  .next { s.retire p.length with fd := p, fmt := .v6 }

/-- R171: SkipMap. -/
def execSkipMap (p : List Byte) (s : State) : Answer :=
  .next { s.retire p.length with sm := p }

/-- R172: DecodingMap. -/
def execDecodingMap (p : List Byte) (s : State) : Answer :=
  .next { s.retire p.length with dm := p }

/-- R173: FrameDataV10. -/
def execFrameDataV10 (p : List Byte) (s : State) : Answer :=
  .next { s.retire p.length with fd := p, fmt := .v10 }

end Sys2Proof.Machine
end

