-- ==== Sys2Proof/Machine/ConfigOps.lean ====
section
/-! DEFINITION. The configuration opcodes (41_config_opcodes.md): Timer, InitAudio, StartAudio, InitVideo, SetMode,
Palette. -/

namespace Sys2Proof.Machine

/-- R150, R138: Timer. -/
def execTimer (p : Payload TimerFields) (s : State) : Answer :=
  match p with
  | .missized _ => raiseIn s .badConfiguration
  | .fields v =>
    if s.tmrSet then raiseIn s .badConfiguration
    else if v.rate.toNat * v.subdiv.toNat = 0 then raiseIn s .badConfiguration
    else .next { s.retire 6 with tmrRate := v.rate, tmrSubdiv := v.subdiv, tmrSet := true }

/-- R151, R138: InitAudio. -/
def execInitAudio (p : Payload InitAudioFields) (s : State) : Answer :=
  match p with
  | .missized _ => raiseIn s .badConfiguration
  | .fields v =>
    if s.audInit then raiseIn s .badConfiguration
    else if v.flags &&& 3#16 ≠ 0 then raiseIn s .badConfiguration
    else .next { s.retire 8 with
      audUnk := v.unk, audFlags := v.flags, audRate := v.sampleRate, audBufLen := v.bufLen, audInit := true }

/-- R152, R138: StartAudio, a no-operation. -/
def execStartAudio (p : List Byte) (s : State) : Answer :=
  if p.length ≠ 0 then raiseIn s .badConfiguration
  else .next (s.retire 0)

/-- The zero-filled surfaces of a w × h block grid (R153). -/
def zeroSurfaces (w h : Word16) : Surfaces :=
  let m := Memory.zero (64 * w.toNat * h.toNat)
  ⟨m, m, m⟩

/-- R153, R138: InitVideo. -/
def execInitVideo (p : Payload InitVideoFields) (s : State) : Answer :=
  match p with
  | .missized _ => raiseIn s .badConfiguration
  | .fields v =>
    if s.vidInit then raiseIn s .badConfiguration
    else if v.wBlocks = 0 ∨ v.hBlocks = 0 then raiseIn s .badConfiguration
    else if v.trueColor ≠ 0 then raiseIn s .badConfiguration
    else .next { s.retire 8 with
      wBlk := v.wBlocks, hBlk := v.hBlocks, vidCount := v.count, vidTrueColor := v.trueColor,
      surf := zeroSurfaces v.wBlocks v.hBlocks, vidInit := true }

/-- R154, R138: SetMode, ignored. -/
def execSetMode (p : List Byte) (s : State) : Answer :=
  if p.length ≠ 6 then raiseIn s .badConfiguration
  else .next (s.retire 6)

/-- R155: the palette RAM after the expanded source bytes `cs` are stored from byte address `a` on. -/
def storeChannels (pal : List Byte) (a : Nat) : List Byte → List Byte
  | [] => pal
  | c :: cs => storeChannels (pal.set a (expandChannel c)) (a + 1) cs

/-- R155: Palette. The payload length L is 4 + `body.length`. -/
def execPalette (p : Payload PaletteFields) (s : State) : Answer :=
  match p with
  | .missized _ => raiseIn s .badConfiguration
  | .fields v =>
    if v.body.length < 3 * v.palCount.toNat then raiseIn s .badConfiguration
    else if v.palStart.toNat + v.palCount.toNat > Config.palEntries then raiseIn s .badConfiguration
    else .next { (s.retire (4 + v.body.length)).setPalDirty with
      pal := storeChannels s.pal (3 * v.palStart.toNat) (v.body.take (3 * v.palCount.toNat)) }

end Sys2Proof.Machine
end

