-- ==== Sys2Proof/Machine/Framing.lean ====
section
/-! DEFINITION. Stream framing (40_stream_framing.md): End, EndPacket and the illegal row. -/

namespace Sys2Proof.Machine

/-- R134, R138: End. -/
def execEndStream (p : List Byte) (s : State) : Answer :=
  if p.length ≠ 0 then raiseIn s .badConfiguration
  else .next (s.setDone.retire 0)

/-- R135, R138: EndPacket also consumes the packet header that follows the record. -/
def execEndPacket (p : List Byte) (s : State) : Answer :=
  if p.length ≠ 0 then raiseIn s .badConfiguration
  else
    match readPacketHeader s (s.cur + 4) with
    | .ok t => .next t
    | .error c => raiseIn s c

/-- R136: an illegal tag raises UnknownOpcode; its payload is neither read nor skipped. -/
def execIllegal (_len _tag : Word16) (s : State) : Answer := raiseIn s .unknownOpcode

end Sys2Proof.Machine
end

