-- ==== Sys2Proof/Machine/BlockCopy.lean ====
section
/-! DEFINITION. The frame-buffer block-copy engine (44_block_copy_engine.md): its five primitives. -/

namespace Sys2Proof.Machine

/-- One row of a block copy (R194): all 8 source bytes are read before any destination byte is written. -/
def copyRow (dst src : Role) (a d : Nat) (x : Surfaces) : Res Surfaces := do
  let t ← (x.get src).read a 8
  let m ← (x.get dst).write d t
  .ok (x.set m dst)

/-- R192, R194: the 8 rows in ascending order, a later row seeing what an earlier one wrote. `a` and `d` are the
addresses of the source and destination regions, `w` the pitch. -/
def copyRows (dst src : Role) (w a d : Nat) (x : Surfaces) : Res Surfaces :=
  (List.range 8).foldlM (fun y r => copyRow dst src (a + r * w) (d + r * w) y) x

/-- R191 `copyLiteralBlock(dst, b, lc)`. -/
def copyLiteralBlock (s : State) (dst : Role) (b lc : Nat) (x : Surfaces) : Res Surfaces :=
  if lc + 64 > s.fd.length then raised .mapExhausted
  else
    (List.range 8).foldlM (fun y r => do
      let m ← (y.get dst).write (s.anchor b + r * s.width) (bytesAt s.fd (lc + 8 * r) 8)
      .ok (y.set m dst)) x

/-- R192 `copyBlockWithOffset(dst, src, b, off)`, with the bounds check of R193. -/
def copyBlockWithOffset (s : State) (dst src : Role) (b : Nat) (off : Int) (x : Surfaces) : Res Surfaces :=
  let a := s.sourceAddr b off
  if s.inBounds a then copyRows dst src s.width a.toNat (s.anchor b) x
  else raised .offsetOutOfBounds

/-- R195 `copyBlock(dst, src, b)`. -/
def copyBlock (s : State) (dst src : Role) (b : Nat) (x : Surfaces) : Res Surfaces :=
  copyBlockWithOffset s dst src b 0 x

/-- R196 `copySurface(dst, src)`: all W*H pixels. -/
def copySurface (s : State) (dst src : Role) (x : Surfaces) : Res Surfaces := do
  let m ← (x.get dst).copyFirst (x.get src) (s.width * s.height)
  .ok (x.set m dst)

/-- R197 `swap(R0, R1)`. -/
def swapRefs (x : Surfaces) : Surfaces := { x with r0 := x.r1, r1 := x.r0 }

end Sys2Proof.Machine
end

