-- ==== Sys2Proof/Machine/Format10.lean ====
section
/-! DEFINITION. The block operations of format 10 (47_format10.md) and the skip flags (45_skip_stream.md). Each acts on
the SendVideo in progress at its block `r.b`. -/

namespace Sys2Proof.Machine

/-- R242: the next literal block into R0. -/
def f10Lit (s : State) (r : Recon) : Res Recon := do
  let x ← copyLiteralBlock s .r0 r.b r.lc r.surf
  .ok { r.nextWord with surf := x, lc := r.lc + 64 }

/-- R241: nothing in pass 1; the word is consumed. -/
def f10Nop1 (r : Recon) : Res Recon := .ok r.nextWord

/-- R243: nothing in pass 2; the word is consumed. -/
def f10Nop2 (r : Recon) : Res Recon := .ok r.nextWord

/-- R244: R0 at the offset into R0. -/
def f10Cur (v : BitVec 15) (s : State) (r : Recon) : Res Recon := do
  let x ← copyBlockWithOffset s .r0 .r0 r.b (offsetOf v) r.surf
  .ok { r.nextWord with surf := x }

/-- R245: R1 at the offset into R0, at every frame number. -/
def f10Prev (v : BitVec 15) (s : State) (r : Recon) : Res Recon := do
  let x ← copyBlockWithOffset s .r0 .r1 r.b (offsetOf v) r.surf
  .ok { r.nextWord with surf := x }

/-- R212: the flag is taken from the skip stream. -/
def takeFlag (s : State) (r : Recon) : Res Recon := do
  let k ← r.skip.next s.sm
  .ok { r with skip := k.2 }

/-- R212, R248: a skipped block is not touched and consumes no map word. -/
def skipBlock (s : State) (r : Recon) : Res Recon := do
  let r ← takeFlag s r
  .ok r.nextBlock

/-- R246: block `b` of R0 into F. -/
def showBlock (s : State) (r : Recon) : Res Recon := do
  let r ← takeFlag s r
  let x ← copyBlock s .f .r0 r.b r.surf
  .ok { r.nextBlock with surf := x }

/-- R212, R241, R243, R246: a block that is not skipped reads a map word next in passes 1 and 2, and is shown in pass 3. -/
def keepBlock (s : State) (r : Recon) : Res Recon :=
  if r.pass = .f10Pass3 then showBlock s r
  else do
    let r ← takeFlag s r
    .ok { r with wordDue := true }

/-- F10.LIT (R242). -/
def execF10Lit (s : State) : Answer := onBlock [.f10Pass1] f10Lit s

/-- F10.NOP1 (R241): the word is not used beyond being non-zero. -/
def execF10Nop1 (_op : Word16) (s : State) : Answer := onBlock [.f10Pass1] (fun _ r => f10Nop1 r) s

/-- F10.NOP2 (R243). -/
def execF10Nop2 (s : State) : Answer := onBlock [.f10Pass2] (fun _ r => f10Nop2 r) s

/-- F10.CUR (R244). -/
def execF10Cur (v : BitVec 15) (s : State) : Answer := onBlock [.f10Pass2] (f10Cur v) s

/-- F10.PREV (R245). -/
def execF10Prev (v : BitVec 15) (s : State) : Answer := onBlock [.f10Pass2] (f10Prev v) s

/-- SKIP.S (R212, R248), in any of the three passes. -/
def execSkipS (s : State) : Answer := onBlock [.skipFlag, .showFlag] skipBlock s

/-- SKIP.N (R212), in any of the three passes. -/
def execSkipN (s : State) : Answer := onBlock [.skipFlag, .showFlag] keepBlock s

/-- F10.SHOW (R246). -/
def execF10Show (s : State) : Answer := onBlock [.showFlag] showBlock s

end Sys2Proof.Machine
end

