-- ==== Sys2Proof/Machine/Format6.lean ====
section
/-! DEFINITION. The block operations of format 6 (46_send_video_format6.md). Each acts on the SendVideo in progress at
its block `r.b`, then goes on to the next block. -/

namespace Sys2Proof.Machine

/-- R225: the next literal block into F. -/
def f6Lit (s : State) (r : Recon) : Res Recon := do
  let x ← copyLiteralBlock s .f r.b r.lc r.surf
  .ok { r.nextWord with surf := x, lc := r.lc + 64 }

/-- R226: from frame number 2 on, the co-located block of R1 into F. -/
def f6Ref1 (s : State) (r : Recon) : Res Recon :=
  if r.fn > 1 then do
    let x ← copyBlock s .f .r1 r.b r.surf
    .ok { r.nextWord with surf := x }
  else .ok r.nextWord

/-- R228: nothing. -/
def f6Nop2 (r : Recon) : Res Recon := .ok r.nextWord

/-- R229: from frame number 1 on, R0 at the offset into F. -/
def f6Inter (v : BitVec 15) (s : State) (r : Recon) : Res Recon :=
  if r.fn > 0 then do
    let x ← copyBlockWithOffset s .f .r0 r.b (offsetOf v) r.surf
    .ok { r.nextWord with surf := x }
  else .ok r.nextWord

/-- R230: F at the offset into F. -/
def f6Intra (v : BitVec 15) (s : State) (r : Recon) : Res Recon := do
  let x ← copyBlockWithOffset s .f .f r.b (offsetOf v) r.surf
  .ok { r.nextWord with surf := x }

/-- F6.LIT (R225). -/
def execF6Lit (s : State) : Answer := onBlock [.f6Pass1] f6Lit s

/-- F6.REF1 (R226): the word is not used beyond being non-zero. -/
def execF6Ref1 (_op : Word16) (s : State) : Answer := onBlock [.f6Pass1] f6Ref1 s

/-- F6.NOP2 (R228). -/
def execF6Nop2 (s : State) : Answer := onBlock [.f6Pass2] (fun _ r => f6Nop2 r) s

/-- F6.INTER (R229). -/
def execF6Inter (v : BitVec 15) (s : State) : Answer := onBlock [.f6Pass2] (f6Inter v) s

/-- F6.INTRA (R230). -/
def execF6Intra (v : BitVec 15) (s : State) : Answer := onBlock [.f6Pass2] (f6Intra v) s

end Sys2Proof.Machine
end

