-- ==== Sys2Proof/Machine/SendVideo.lean ====
section
/-! DEFINITION. SendVideo (46_send_video_format6.md R220, R221) and the sequencers of the two reconstructors
(R222 to R231; 47_format10.md R240 to R247). A whole SendVideo is one step (R6). -/

namespace Sys2Proof.Machine

/-- R224: pass 1 of format 6 at one block. -/
def f6Block1 (s : State) (r : Recon) : Res Recon := do
  let op ← mapWordAt s.fd r.mc
  if op = 0 then f6Lit s r else f6Ref1 s r

/-- R227: pass 2 of format 6 at one block. -/
def f6Block2 (s : State) (r : Recon) : Res Recon := do
  let op ← mapWordAt s.fd r.mc
  if op = 0 then f6Nop2 r
  else if sourceSelect op then f6Inter (biasedOffset op) s r
  else f6Intra (biasedOffset op) s r

/-- R241: pass 1 of format 10 at one block. -/
def f10Block1 (s : State) (r : Recon) : Res Recon := do
  let k ← r.skip.next s.sm
  if k.1 then skipBlock s r
  else do
    let r ← keepBlock s r
    let op ← mapWordAt s.dm r.mc
    if op = 0 then f10Lit s r else f10Nop1 r

/-- R243: pass 2 of format 10 at one block. -/
def f10Block2 (s : State) (r : Recon) : Res Recon := do
  let k ← r.skip.next s.sm
  if k.1 then skipBlock s r
  else do
    let r ← keepBlock s r
    let op ← mapWordAt s.dm r.mc
    if op = 0 then f10Nop2 r
    else if sourceSelect op then f10Prev (biasedOffset op) s r
    else f10Cur (biasedOffset op) s r

/-- R246: pass 3 of format 10 at one block. -/
def f10Block3 (s : State) (r : Recon) : Res Recon := do
  let k ← r.skip.next s.sm
  if k.1 then skipBlock s r else showBlock s r

/-- A pass: `block` at each of `n` blocks in ascending order (R231, R315), stopping at the first fault (R233, R249). -/
def runPass (block : Recon → Res Recon) : Nat → Recon → Res Recon
  | 0, r => .ok r
  | n + 1, r => do
    let r ← block r
    runPass block n r

/-- The start of a further pass: the block index and the skip stream start again (R211, R227, R243, R246); the map cursor
is given. The literal cursor is not used after pass 1. -/
def Recon.enter (r : Recon) (pass : Pass) (mc : Nat) : Recon :=
  { r with pass := pass, b := 0, mc := mc, wordDue := false, skip := .reset }

/-- R220, R221: the working copies and the incremented frame number, before pass 1. -/
def State.openRecon (s : State) (pass : Pass) (mc lc : Nat) (x : Surfaces) : Recon :=
  { pass := pass, fn := s.frameNo + 1, b := 0, mc := mc, lc := lc, wordDue := false, skip := .reset, surf := x }

/-- R223: the pre-step of format 6, R0 into R1 before F into R0. -/
def preStep6 (s : State) (fn : Int) (x : Surfaces) : Res Surfaces := do
  let x ← if fn > 1 then copySurface s .r1 .r0 x else .ok x
  if fn > 0 then copySurface s .r0 .f x else .ok x

/-- R222, R223: format 6 up to the start of pass 1. -/
def openFormat6 (s : State) : Res Recon := do
  let x ← preStep6 s (s.frameNo + 1) s.surf
  .ok (s.openRecon .f6Pass1 Config.fdHdr (Config.fdHdr + 2 * s.blocks) x)

/-- R240, R241: format 10 at the start of pass 1; it has no pre-step. -/
def openFormat10 (s : State) : Recon := s.openRecon .f10Pass1 0 Config.fdHdr s.surf

/-- R223, R231: format 6. -/
def format6 (s : State) : Res Recon := do
  let r ← openFormat6 s
  let r ← runPass (f6Block1 s) s.blocks r
  runPass (f6Block2 s) s.blocks (r.enter .f6Pass2 Config.fdHdr)

/-- R241, R243, R246, R247: format 10. Pass 3 resets the skip stream only. -/
def format10 (s : State) : Res Recon := do
  let r ← runPass (f10Block1 s) s.blocks (openFormat10 s)
  let r ← runPass (f10Block2 s) s.blocks (r.enter .f10Pass2 0)
  let r ← runPass (f10Block3 s) s.blocks (r.enter .f10Pass3 r.mc)
  .ok { r with surf := swapRefs r.surf }

/-- R220, R221: the reconstructor has finished without a fault; its frame number and surfaces are committed. -/
def State.commit (s : State) (r : Recon) : State :=
  { s.retire 6 with frameNo := r.fn, surf := r.surf, recon := none }

/-- The answer of a SendVideo whose reconstructor answered `x`; after a fault the working copies are discarded (R221). -/
def finishVideo (s : State) (x : Res Recon) : Answer :=
  match x with
  | .ok r => .next (s.commit r)
  | .error (.raised c) => raiseIn s c
  | .error (.stopped f) => .fault f

/-- R220, R138: SendVideo. Its three fields are not used (R33). -/
def execSendVideo (p : Payload SendVideoFields) (s : State) : Answer :=
  match p with
  | .missized _ => raiseIn s .badConfiguration
  | .fields _ =>
    if s.vidInit = false then raiseIn s .badConfiguration
    else
      match s.fmt with
      | .none => raiseIn s .badConfiguration
      | .v6 => finishVideo s (format6 s)
      | .v10 => finishVideo s (format10 s)

/-- What follows the last block of a pass, in the SendVideo in progress `r`: the next pass, or the commit; format 10 swaps
its references first (R247). -/
def turnPass (s : State) (r : Recon) : State :=
  match r.pass with
  | .f6Pass1 => { s with recon := some (r.enter .f6Pass2 Config.fdHdr) }
  | .f6Pass2 => s.commit r
  | .f10Pass1 => { s with recon := some (r.enter .f10Pass2 0) }
  | .f10Pass2 => { s with recon := some (r.enter .f10Pass3 r.mc) }
  | .f10Pass3 => s.commit { r with surf := swapRefs r.surf }

end Sys2Proof.Machine
end

