-- ==== Sys2Proof/Machine/Dispatch.lean ====
section
/-! DEFINITION. The meaning of every instruction, one arm per row of spec/opcode_table.json. -/

namespace Sys2Proof.Machine

def exec (i : Instr) (s : State) : Host.Outcome State Fault Refusal :=
  match i with
  | .endStream p => Sys2Proof.Machine.execEndStream p s
  | .endPacket p => Sys2Proof.Machine.execEndPacket p s
  | .timer p => Sys2Proof.Machine.execTimer p s
  | .initAudio p => Sys2Proof.Machine.execInitAudio p s
  | .startAudio p => Sys2Proof.Machine.execStartAudio p s
  | .initVideo p => Sys2Proof.Machine.execInitVideo p s
  | .frameDataV6 p => Sys2Proof.Machine.execFrameDataV6 p s
  | .sendVideo p => Sys2Proof.Machine.execSendVideo p s
  | .audioFrame p => Sys2Proof.Machine.execAudioFrame p s
  | .audioSilent p => Sys2Proof.Machine.execAudioSilent p s
  | .setMode p => Sys2Proof.Machine.execSetMode p s
  | .palette p => Sys2Proof.Machine.execPalette p s
  | .skipMap p => Sys2Proof.Machine.execSkipMap p s
  | .decodingMap p => Sys2Proof.Machine.execDecodingMap p s
  | .frameDataV10 p => Sys2Proof.Machine.execFrameDataV10 p s
  | .illegal len tag => Sys2Proof.Machine.execIllegal len tag s
  | .f6Lit => Sys2Proof.Machine.execF6Lit s
  | .f6Ref1 op => Sys2Proof.Machine.execF6Ref1 op s
  | .f6Nop2 => Sys2Proof.Machine.execF6Nop2 s
  | .f6Inter v => Sys2Proof.Machine.execF6Inter v s
  | .f6Intra v => Sys2Proof.Machine.execF6Intra v s
  | .f10Lit => Sys2Proof.Machine.execF10Lit s
  | .f10Nop1 op => Sys2Proof.Machine.execF10Nop1 op s
  | .f10Nop2 => Sys2Proof.Machine.execF10Nop2 s
  | .f10Cur v => Sys2Proof.Machine.execF10Cur v s
  | .f10Prev v => Sys2Proof.Machine.execF10Prev v s
  | .skipS => Sys2Proof.Machine.execSkipS s
  | .skipN => Sys2Proof.Machine.execSkipN s
  | .f10Show => Sys2Proof.Machine.execF10Show s

end Sys2Proof.Machine
end

