-- ==== Sys2Proof/Machine/Fetch.lean ====
section
/-! DEFINITION. Fetching: the record at CUR (40_stream_framing.md R132), the second-level instruction that a SendVideo in
progress reads next, and the placing of an instruction where the next step fetches it. -/

namespace Sys2Proof.Machine

/-- R132: when a step is enabled. -/
def State.enabled (s : State) : Bool := s.loaded && !s.done && s.err.isNone

/-- R132 checks 1 to 3: the record at CUR. Bytes that SRC cannot supply are `Truncated` (R61, R283). -/
def fetchRecord (s : State) : Except ErrCode Instr :=
  match decodeRecord (s.source.drop s.cur) with
  | .ok i => .ok i
  | .error _ => .error .truncated

/-- The tag of the record at CUR, which R132 returns to the drain loop (R137). -/
def State.tagAt (s : State) : Word16 := u16BE s.source (s.cur + 2)

/-- The flag the skip stream delivers next, as a bit (R212). -/
def nextFlag (s : State) (r : Recon) : Res Bool := do
  let k ← r.skip.next s.sm
  .ok !k.1

/-- The second-level instruction at the block of a SendVideo in progress (R224, R227, R241, R243, R246). -/
def fetchBlock (s : State) (r : Recon) : Res Instr :=
  match r.pass with
  | .f6Pass1 => do
    let op ← mapWordAt s.fd r.mc
    .ok (decodeF6Pass1 op)
  | .f6Pass2 => do
    let op ← mapWordAt s.fd r.mc
    .ok (decodeF6Pass2 op)
  | .f10Pass1 =>
    if r.wordDue then do
      let op ← mapWordAt s.dm r.mc
      .ok (decodeF10Pass1 op)
    else do
      let bit ← nextFlag s r
      .ok (decodeSkipFlag bit)
  | .f10Pass2 =>
    if r.wordDue then do
      let op ← mapWordAt s.dm r.mc
      .ok (decodeF10Pass2 op)
    else do
      let bit ← nextFlag s r
      .ok (decodeSkipFlag bit)
  | .f10Pass3 => do
    let bit ← nextFlag s r
    .ok (decodeShowFlag bit)

/-! ### Placing an instruction where the next step fetches it (assumption 10) -/

/-- The bytes `x` with `new` at address `a`; bytes before it that `x` lacks are 0x00. -/
def overlay (x : List Byte) (a : Nat) (new : List Byte) : List Byte :=
  x.take a ++ List.replicate (a - x.length) 0 ++ new ++ x.drop (a + new.length)

/-- What `load` leaves when it is ready for a step (R132): a bound source, no End and no fault. -/
def State.ready (s : State) : State := { s with loaded := true, done := false, err := none, recon := none }

/-- The record bytes stored in SRC at CUR. -/
def State.placeRecord (s : State) (bytes : List Byte) : State :=
  { s.ready with src := some (overlay s.source s.cur bytes) }

/-- A grid for a second-level instruction to act on: the one the state has, or one block of zeros. -/
def State.withGrid (s : State) : State :=
  if s.vidInit then s else { s with vidInit := true, wBlk := 1, hBlk := 1, surf := zeroSurfaces 1 1 }

/-- A SendVideo in progress at block 0 of pass 2 of format 6, whose map word is `op`. -/
def State.placeMapWord (s : State) (op : Word16) : State :=
  let t := s.ready.withGrid
  { t with
    fd := List.replicate Config.fdHdr 0 ++ bytesLE op
    recon := some (t.openRecon .f6Pass2 Config.fdHdr Config.fdHdr t.surf) }

/-- A SendVideo in progress at block 0 of pass 1 of format 10, whose skip flag is `bit`. -/
def State.placeFlag (s : State) (bit : Bool) : State :=
  let t := s.ready.withGrid
  { t with sm := [if bit then 1 else 0, 0], recon := some (openFormat10 t) }

end Sys2Proof.Machine
end

