-- ==== Sys2Proof/Machine/Step.lean ====
section
/-! DEFINITION. The step (40_stream_framing.md R132): fetch, decode and execute one opcode record. A state inside a
SendVideo, which no step from outside one leaves behind, steps by one second-level instruction (assumption 7). -/

namespace Sys2Proof.Machine

/-- One opcode record. -/
def stepRecord (s : State) : Answer :=
  match fetchRecord s with
  | .ok i => exec i s
  | .error c => raiseIn s c

/-- One second-level instruction of the SendVideo in progress `r`, or what follows the last block of a pass. -/
def stepBlock (s : State) (r : Recon) : Answer :=
  if r.b < s.blocks then
    match fetchBlock s r with
    | .ok i => exec i s
    | .error (.raised c) => raiseIn s c
    | .error (.stopped f) => .fault f
  else .next (turnPass s r)

/-- The machine's step. -/
def step (s : State) : Host.Outcome State Fault Refusal :=
  if s.enabled then
    match s.recon with
    | none => stepRecord s
    | some r => stepBlock s r
  else .fault .stepNotEnabled

/-- The state with a table word stored where `step` fetches its next instruction, and all that the fetch needs
(assumption 10). -/
def State.withFetchWord (s : State) (nbits w : Nat) : State :=
  match tableWord nbits w with
  | .record bytes => s.placeRecord bytes
  | .mapWord op => s.placeMapWord op
  | .skipFlag bit => s.placeFlag bit

end Sys2Proof.Machine
end

