-- ==== Sys2Proof/Machine/HostCommands.lean ====
section
/-! DEFINITION. The host interface (48_host_interface.md): the two commands that run steps, the flag clear, destroy, and
the seven accessors. The commands are functions of the state beside `step`, since R43 makes the host's schedule of calls
no state (assumption 11). -/

namespace Sys2Proof.Machine

/-- What the host can ask the engine to do (R260, R261, R263, R264). -/
inductive HostCommand where
  | load (source : List Byte)
  | advanceFrame
  | clearPaletteDirty
  | destroy
deriving DecidableEq, Repr

/-- What a host command returns (R260, R261; for the other two commands, assumption 23). -/
inductive HostResult where
  | ok
  | endOfStream
  | fault (c : ErrCode)
  /-- The model stopped: a step answered a model fault or a refusal, or the fuel ran out. No command of a state that
  meets `State.Inv` returns it (assumption 12). -/
  | stuck
deriving DecidableEq, Repr

/-- How draining one packet ends: at an End or EndPacket, with whether a SendVideo executed; with a fault; or stuck. -/
inductive Drain where
  | packet (s : State) (sv : Bool)
  | raised (s : State) (c : ErrCode)
  | stuck (s : State)
deriving DecidableEq, Repr

/-- R137 `DrainPacket`, with fuel (R139: every step moves CUR by at least 4). -/
def drainPacket : Nat → Bool → State → Drain
  | 0, _, s => .stuck s
  | n + 1, sv, s =>
    match step s with
    | .next t =>
      match t.err with
      | some c => .raised t c
      | none =>
        let sv := sv || s.tagAt == Opcode.sendVideo.tag
        if s.tagAt = Opcode.endStream.tag ∨ s.tagAt = Opcode.endPacket.tag then .packet t sv
        else drainPacket n sv t
    | .fault _ => .stuck s
    | .refused _ => .stuck s

/-- R139: a number of steps that no command exceeds. -/
def State.fuel (s : State) : Nat := s.source.length + 1

/-- R260: `while DONE = 0 and PKT_KIND < 3: DrainPacket`. -/
def loadLoop : Nat → State → State × HostResult
  | 0, s => (s, .stuck)
  | n + 1, s =>
    if s.done = false ∧ s.pktKind.toNat < Config.kindVideo then
      match drainPacket s.fuel false s with
      | .packet t _ => loadLoop n t
      | .raised t c => (t, .fault c)
      | .stuck t => (t, .stuck)
    else (s, .ok)

/-- R90: the 25 bytes of the container header. -/
def headerBytes : List Byte :=
  [0x49, 0x6E, 0x74, 0x65, 0x72, 0x70, 0x6C, 0x61, 0x79, 0x20, 0x4D, 0x56, 0x45, 0x20, 0x46, 0x69, 0x6C, 0x65,
    0x1A, 0x1A, 0x00, 0x00, 0x01, 0x33, 0x11]

/-- R130 `HeaderCheck`. -/
def headerCheck (s : State) : Except ErrCode State :=
  if Config.hdrBytes > s.source.length then .error .truncated
  else if bytesAt s.source 0 Config.hdrBytes ≠ headerBytes then .error .invalidSignature
  else .ok { s with cur := Config.hdrBytes }

/-- R260 `load(source)`. After a fault CUR is where the faulting procedure began (R288). -/
def load (source : List Byte) : State × HostResult :=
  let s : State := { State.reset with src := some source }
  match headerCheck s with
  | .error c => (s.raise c, .fault c)
  | .ok t =>
    match readPacketHeader t t.cur with
    | .error c => (t.raise c, .fault c)
    | .ok u => loadLoop u.fuel { u with loaded := true }

/-- R261: `while sv = false and DONE = 0: sv ← DrainPacket`, then ok or endOfStream. -/
def advanceLoop : Nat → State → State × HostResult
  | 0, s => (s, .stuck)
  | n + 1, s =>
    if s.done then (s, .endOfStream)
    else
      match drainPacket s.fuel false s with
      | .packet t sv => if sv then (t, .ok) else advanceLoop n t
      | .raised t c => (t, .fault c)
      | .stuck t => (t, .stuck)

/-- R261 `advanceFrame()`; R266: ERR is sticky. With LOADED = 0 no step runs and endOfStream is returned, which is what R265
says of a total model. -/
def advanceFrame (s : State) : State × HostResult :=
  match s.err with
  | some c => (s, .fault c)
  | none => if s.loaded then advanceLoop s.fuel s else (s, .endOfStream)

/-- R263 `clearPaletteDirty()`. -/
def clearPaletteDirty (s : State) : State := s.clearPalDirty

/-- R264 `destroy()`: Reset (R310), and the source is unbound. -/
def destroy (_s : State) : State := State.reset

/-- What a host command does and returns (R260, R261, R263, R264). R263 and R264 give no result: that `clearPaletteDirty` and
`destroy` return `ok` is a DESIGN CHOICE (assumption 23). -/
def hostCommand (c : HostCommand) (s : State) : State × HostResult :=
  match c with
  | .load source => load source
  | .advanceFrame => advanceFrame s
  | .clearPaletteDirty => (clearPaletteDirty s, .ok)
  | .destroy => (destroy s, .ok)

/-! ### Accessors (R262): pure functions of the state -/

/-- `currentSurface()`: the bytes of F, with W and H. -/
def currentSurface (s : State) : List Byte × Nat × Nat :=
  ((List.range s.surf.f.len).map s.surf.f.byte, s.width, s.height)

/-- `palette()`: the 768 bytes of PAL. -/
def palette (s : State) : List Byte := s.pal

/-- `paletteDirty()`. -/
def paletteDirty (s : State) : Bool := s.palDirty

/-- `frameRate()`: the exact rational, or unset. -/
def frameRate (s : State) : Option Rat := if s.tmrSet then some (frameRateOf s.tmrRate s.tmrSubdiv) else none

/-- `frameIndex()`. -/
def frameIndex (s : State) : Int := s.frameNo

/-- `dimensions()` in pixels; (0, 0) before InitVideo. -/
def dimensions (s : State) : Nat × Nat := if s.vidInit then (s.width, s.height) else (0, 0)

/-- `audioStream()`: the queue and the sample rate, or none. -/
def audioStream (s : State) : Option (List (List Byte) × Word16) :=
  if s.audInit then some (s.audOut, s.audRate) else none

end Sys2Proof.Machine
end

