-- ==== Sys2Proof/WellFormed.lean ====
section
/-! DEFINITION. Which terms of `Instr` are the reading of some bits: payloads no longer than payloadLength can say
(R92), a `missized` payload really of another size, an illegal tag really illegal, a non-zero map word where the zero
word is another row (R110). -/

namespace Sys2Proof

/-- MAX_PAYLOAD (R5): payloadLength is a `u16` (R92). -/
def payloadFits (n : Nat) : Bool := n ≤ 65535

/-- A `missized` payload of an opcode whose payload is exactly `size` bytes (R138). -/
def Payload.wfFixed {α : Type} (size : Nat) : Payload α → Bool
  | .fields _ => true
  | .missized p => p.length != size && payloadFits p.length

/-- A payload of `head` bytes of fields and a tail: `tail` is the tail's length (R102, R105). -/
def Payload.wfTail {α : Type} (head : Nat) (tail : α → Nat) : Payload α → Bool
  | .fields v => payloadFits (head + tail v)
  | .missized p => p.length < head

/-- The instruction is the reading of some bits. -/
def Instr.wf : Instr → Bool
  | .endStream p => payloadFits p.length
  | .endPacket p => payloadFits p.length
  | .timer p => p.wfFixed 6
  | .initAudio p => p.wfFixed 8
  | .startAudio p => payloadFits p.length
  | .initVideo p => p.wfFixed 8
  | .frameDataV6 p => payloadFits p.length
  | .sendVideo p => p.wfFixed 6
  | .audioFrame p => p.wfTail 6 fun v => v.pcm.length
  | .audioSilent p => p.wfFixed 6
  | .setMode p => payloadFits p.length
  | .palette p => p.wfTail 4 fun v => v.body.length
  | .skipMap p => payloadFits p.length
  | .decodingMap p => payloadFits p.length
  | .frameDataV10 p => payloadFits p.length
  | .illegal _ tag => (Opcode.ofTag tag).isNone
  | .f6Lit => true
  | .f6Ref1 op => op != 0
  | .f6Nop2 => true
  | .f6Inter _ => true
  | .f6Intra v => v != 0
  | .f10Lit => true
  | .f10Nop1 op => op != 0
  | .f10Nop2 => true
  | .f10Cur v => v != 0
  | .f10Prev _ => true
  | .skipS => true
  | .skipN => true
  | .f10Show => true

end Sys2Proof
end

