-- ==== Sys2Proof/Safety.lean ====
section
/-! DEFINITION. What a sound state of the machine is, and the specification-side functions that the statements use to say
what an instruction should do: plain functions of bytes, apart from the machine's own operations. -/

namespace Sys2Proof

/-- What a pass reads next, a map word or a flag of the stream `c`, can be the instruction `i`: R110 and R112 by the
instruction's own stream, and a flag of pass 3 also by the rows of the other passes' flags (log entry 8). -/
def Instr.readAs (i : Instr) (c : Context) : Prop :=
  c = i.context ∨ c = .showFlag ∧ (i = .skipS ∨ i = .skipN)

end Sys2Proof

namespace Sys2Proof.Machine

/-! ### The invariant of the machine -/

/-- Every surface is in canonical form and has `n` bytes (R35). -/
def Surfaces.fit (x : Surfaces) (n : Nat) : Prop := ∀ k, (x.get k).wf ∧ (x.get k).len = n

/-- W*H (R35): the length of each surface. -/
def State.pixels (s : State) : Nat := s.width * s.height

/-- A SendVideo in progress: its working copies are surfaces (R221), its frame number is the next one (R220), its block
index is in the grid or just past it, SK_BITS is at most 16 (R210), and the record it executes lies in SRC (R132). -/
structure Recon.Inv (s : State) (r : Recon) : Prop where
  vid : s.vidInit = true
  loaded : s.loaded = true
  fit : r.surf.fit s.pixels
  fn : r.fn = s.frameNo + 1
  block : r.b ≤ s.blocks
  bits : r.skip.bits ≤ 16
  room : s.cur + 10 ≤ s.source.length

/-- What the spec says of the state between steps. -/
structure State.Inv (s : State) : Prop where
  /-- R29: "When VID_INIT = 1, W_BLK >= 1, H_BLK >= 1 and VID_TRUECOLOR = 0". -/
  vidOn : s.vidInit = true → 1 ≤ s.wBlk.toNat ∧ 1 ≤ s.hBlk.toNat ∧ s.vidTrueColor = 0
  /-- R40: before InitVideo the geometry is 0. -/
  vidOff : s.vidInit = false → s.wBlk = 0 ∧ s.hBlk = 0
  /-- R35: the surfaces have W*H bytes, none before InitVideo. -/
  fit : s.surf.fit s.pixels
  /-- R30: "When TMR_SET = 1 the product is non-zero". -/
  timer : s.tmrSet = true → s.tmrRate.toNat * s.tmrSubdiv.toNat ≠ 0
  /-- R31: "When AUD_INIT = 1, AUD_FLAGS & 3 = 0". -/
  audOn : s.audInit = true → s.audFlags &&& 3#16 = 0
  /-- R36: AUD_OUT "exists (may be appended to) only when AUD_INIT = 1". -/
  audOff : s.audInit = false → s.audOut = []
  /-- R34: PAL is 768 bytes. -/
  pal : s.pal.length = 768
  /-- R39: each buffer has 0 to 65535 bytes. -/
  buffers : s.fd.length ≤ 65535 ∧ s.sm.length ≤ 65535 ∧ s.dm.length ≤ 65535
  /-- R32, R39: FD is written by the two opcodes that set FMT. -/
  fmt : s.fmt = .none → s.fd = []
  /-- R28: the frame number starts at −1 and only grows. -/
  frameNo : -1 ≤ s.frameNo
  /-- R26, R311: once loaded, CUR is past the headers and inside SRC. -/
  cursor : s.loaded = true → 29 ≤ s.cur ∧ s.cur ≤ s.source.length
  /-- R22, R38: what a SendVideo in progress holds. -/
  recon : ∀ r, s.recon = some r → r.Inv s

/-! ### Block copies on plain bytes -/

/-- Address `x` is one of the 64 addresses of the block whose top-left pixel is at `d`, with pitch `w` (R190). -/
def inBlock (w d x : Nat) : Prop := ∃ r, r < 8 ∧ d + r * w ≤ x ∧ x < d + r * w + 8

/-- R194 on one surface: the bytes after the first `k` rows of a copy from `a` to `d`, each row read whole before it is
written, a later row seeing the earlier ones. -/
def rowsAfter (w a d : Nat) (m : Nat → Byte) : Nat → Nat → Byte
  | 0, x => m x
  | k + 1, x =>
    if d + k * w ≤ x ∧ x < d + k * w + 8 then rowsAfter w a d m k (a + k * w + (x - (d + k * w)))
    else rowsAfter w a d m k x

/-! ### What a frame needs -/

/-- The decoding-map word of block `b` in format 6 (R222). -/
def State.word6 (s : State) (b : Nat) : Word16 := u16LE s.fd (14 + 2 * b)

/-- How many of the first `b` blocks are literals in format 6 (R225). -/
def State.literals6 (s : State) (b : Nat) : Nat := ((List.range b).filter fun k => s.word6 k = 0).length

/-- How many of the first `b` blocks are not skipped in format 10 (R215, R240). -/
def State.kept10 (s : State) (b : Nat) : Nat := ((List.range b).filter fun k => !skippedAt s.sm k).length

/-- The decoding-map word of block `b` in format 10, when it is not skipped (R240). -/
def State.word10 (s : State) (b : Nat) : Word16 := u16LE s.dm (2 * s.kept10 b)

/-- How many of the first `b` blocks are literals in format 10 (R242). -/
def State.literals10 (s : State) (b : Nat) : Nat :=
  ((List.range b).filter fun k => !skippedAt s.sm k && s.word10 k == 0).length

/-- R233, R222, R225: format 6 has the map words and the literals that its blocks need. -/
def State.supplied6 (s : State) : Prop :=
  14 + 2 * s.blocks ≤ s.fd.length ∧
  (s.literals6 s.blocks ≠ 0 → 14 + 2 * s.blocks + 64 * s.literals6 s.blocks ≤ s.fd.length)

/-- R249: format 10 has the skip words, the map words and the literals that its blocks need. -/
def State.supplied10 (s : State) : Prop :=
  s.blocks ≤ 16 * (s.sm.length / 2) ∧ 2 * s.kept10 s.blocks ≤ s.dm.length ∧
  (s.literals10 s.blocks ≠ 0 → 14 + 64 * s.literals10 s.blocks ≤ s.fd.length)

/-- R229, R230, R193: every offset copy that format 6 executes with frame number `fn` has its source in bounds. -/
def State.boundedFrame6 (s : State) (fn : Int) : Prop :=
  ∀ b, b < s.blocks → s.word6 b ≠ 0 → (sourceSelect (s.word6 b) = true → 0 < fn) →
    s.inBounds (s.sourceAddr b (offsetOf (biasedOffset (s.word6 b)))) = true

/-- R244, R245, R193: every offset copy of format 10 has its source in bounds. -/
def State.boundedFrame10 (s : State) : Prop :=
  ∀ b, b < s.blocks → skippedAt s.sm b = false → s.word10 b ≠ 0 →
    s.inBounds (s.sourceAddr b (offsetOf (biasedOffset (s.word10 b)))) = true

/-! ### The skip stream, call by call -/

/-- The skip stream after `j` calls of `skip()` since `reset` (R211, R212). -/
def skipStreamAfter (sm : List Byte) : Nat → Res SkipStream
  | 0 => .ok .reset
  | j + 1 => do
    let k ← skipStreamAfter sm j
    let n ← k.next sm
    .ok n.2

/-- The (j+1)-th call of `skip()` since `reset` (R215). -/
def skipCall (sm : List Byte) (j : Nat) : Res Bool := do
  let k ← skipStreamAfter sm j
  let n ← k.next sm
  .ok n.1

/-! ### Running a SendVideo one second-level instruction at a time -/

/-- At most `n` steps of a SendVideo in progress, stopping when it is over. -/
def runBlocks : Nat → State → Answer
  | 0, s => .next s
  | n + 1, s =>
    match s.recon with
    | none => .next s
    | some _ =>
      match step s with
      | .next t => runBlocks n t
      | .fault f => .fault f
      | .refused r => .refused r

end Sys2Proof.Machine
end

