-- ==== Sys2Proof/Certificates/Slice0/Obligations.lean ====
section
/-! DEFINITION. The statements for the provers. Each docstring names the rules of spec/ that the statement formalises, or says
that it is about a choice of the model. -/

open Sys2Proof Sys2Proof.Machine

/-! ## Encoding -/

/-- Decode and encode agree on every instruction of all three streams, whatever bytes follow a record (R90 to R112). -/
def Obligations.DecodeOfEncode : Prop :=
  ∀ (i : Instr) (rest : List Byte), i.wf = true →
    match encode i with
    | .record bytes => i.context = .stream ∧ decodeRecord (bytes ++ rest) = .ok i
    | .word op => decode i.context (.word op) = .ok i
    | .flag bit => decode i.context (.flag bit) = .ok i

/-- Every record has one reading: what the decoder reads is well formed, and its encoding is the record that was read
(R92, R133). -/
def Obligations.EncodeOfDecodedRecord : Prop :=
  ∀ (bytes : List Byte) (i : Instr), decodeRecord bytes = .ok i →
    i.wf = true ∧ i.context = .stream ∧ ∃ own rest, bytes = own ++ rest ∧ encode i = .record own

/-- Every one of the 65536 decoding-map words is legal in each of the four passes that read one, and either flag of the
skip map in each of its passes, and each has one reading (R110, R112). A SKIP.S of pass 3 is the same instruction as one
of the other passes. -/
def Obligations.EveryMapWordAndFlagIsLegal : Prop :=
  (∀ (ctx : Context) (op : Word16), ctx ∈ [.f6Pass1, .f6Pass2, .f10Pass1, .f10Pass2] →
    ∃ i, decode ctx (.word op) = .ok i ∧ i.wf = true ∧ i.context = ctx ∧ encode i = .word op) ∧
  (∀ (ctx : Context) (bit : Bool), ctx ∈ [.skipFlag, .showFlag] →
    ∃ i, decode ctx (.flag bit) = .ok i ∧ i.wf = true ∧ encode i = .flag bit)

/-- Words written out from the encodings of 30_encoding.md decode to the instructions they stand for. -/
def Obligations.SampleWordsDecode : Prop :=
  decodeRecord [0x00, 0x00, 0x00, 0x00] = .ok (.endStream []) ∧
  decodeRecord [0x06, 0x00, 0x02, 0x00, 0x35, 0x82, 0x00, 0x00, 0x01, 0x00] = .ok (.timer (.fields ⟨33333, 1⟩)) ∧
  decodeRecord [0x08, 0x00, 0x05, 0x02, 0x28, 0x00, 0x19, 0x00, 0xEF, 0xBE, 0x00, 0x00] =
    .ok (.initVideo (.fields ⟨40, 25, 0xBEEF, 0⟩)) ∧
  decodeRecord [0x64, 0x00, 0xBE, 0xEF] = .ok (.illegal 100 0xBEEF) ∧
  decode .f6Pass2 (.word 0xC088) = .ok (.f6Inter 0x4088) ∧
  decode .f10Pass2 (.word 0x3FF8) = .ok (.f10Cur 0x3FF8) ∧
  decode .skipFlag (.flag true) = .ok .skipN

/-! ## The step -/

/-- When the bytes at CUR decode to a record, the step is the meaning of it; nothing is added around it (R132). -/
def Obligations.StepRunsDecodedRecord : Prop :=
  ∀ (s : State) (i : Instr), s.loaded = true → s.done = false → s.err = none → s.recon = none →
    decodeRecord (s.source.drop s.cur) = .ok i → step s = exec i s

/-- Inside a SendVideo the step is the meaning of the second-level instruction that the pass reads at its block. The
sub-step is the model's own, log entry 7. -/
def Obligations.StepRunsBlockInstruction : Prop :=
  ∀ (s : State) (r : Recon) (i : Instr), s.loaded = true → s.done = false → s.err = none → s.recon = some r →
    r.b < s.blocks → fetchBlock s r = .ok i → step s = exec i s

/-- Check 3 of a step: a legal tag with fewer than payloadLength bytes after the header raises Truncated and changes nothing
but ERR, before the fixed sizes and the opcode's own checks are looked at (R132, R300). Check 1 is a clause of StepReportsIllegalTag. -/
def Obligations.StepReportsMissingPayload : Prop :=
  ∀ s : State, s.loaded = true → s.done = false → s.err = none → s.recon = none → s.cur + 4 ≤ s.source.length →
    (Opcode.ofTag (u16BE s.source (s.cur + 2))).isSome →
    s.source.length < s.cur + 4 + (u16LE s.source s.cur).toNat →
    step s = .next { s with err := some .truncated }

/-- Check 2 comes before check 3: a tag outside the 15 of R93 raises UnknownOpcode however many payload bytes follow, once the
4 header bytes are there (Truncated before that), and changes nothing but ERR (R136). -/
def Obligations.StepReportsIllegalTag : Prop :=
  ∀ s : State, s.loaded = true → s.done = false → s.err = none → s.recon = none →
    (s.source.length < s.cur + 4 → step s = .next { s with err := some .truncated }) ∧
    (s.cur + 4 ≤ s.source.length →
      u16BE s.source (s.cur + 2) ∉ ([0x0000, 0x0100, 0x0200, 0x0300, 0x0400, 0x0502, 0x0600, 0x0701, 0x0800, 0x0900,
        0x0A00, 0x0C00, 0x0E00, 0x0F00, 0x1000] : List Word16) →
      step s = .next { s with err := some .unknownOpcode })

/-- With LOADED = 0, DONE = 1 or an ERR, no step is enabled (R132); that the model answers its fault stepNotEnabled there is
its own choice, log entry 5. -/
def Obligations.DisabledStepStops : Prop :=
  ∀ s : State, s.loaded = false ∨ s.done = true ∨ s.err ≠ none → step s = .fault .stepNotEnabled

/-- Framing: a step that does not fault moves CUR past exactly the declared payload, and past the packet header that
follows an EndPacket (R133). -/
def Obligations.StepMovesPastItsRecord : Prop :=
  ∀ s t : State, s.recon = none → step s = .next t → t.err = none →
    t.cur = s.cur + 4 + (u16LE s.source s.cur).toNat + if u16BE s.source (s.cur + 2) = 0x0100 then 4 else 0

/-- A faulting step has no effect at all except ERR (R288, R289), whatever the record. -/
def Obligations.FaultingStepChangesOnlyErr : Prop :=
  ∀ s t : State, s.recon = none → step s = .next t → t.err ≠ none → t = { s with err := t.err }

/-- The transient cursors and the skip stream do not survive a step (R22, R38). -/
def Obligations.StepLeavesNoTransients : Prop :=
  ∀ s t : State, s.recon = none → step s = .next t → t.recon = none

/-- A step runs only with DONE = 0 and no ERR latched, so no step clears either; DONE is set by an End record and by nothing
else; no step rebinds SRC or changes LOADED (R23, R25, R26, R37). -/
def Obligations.OnlyEndSetsDone : Prop :=
  ∀ s t : State, s.recon = none → step s = .next t →
    s.done = false ∧ s.err = none ∧ t.src = s.src ∧ t.loaded = s.loaded ∧
    (t.done = true ↔ u16BE s.source (s.cur + 2) = 0x0000 ∧ t.err = none)

/-! ## The invariant -/

/-- The values of R40: one clause per row of its table. Only FRAME_NO = −1 is the source's; for the rest R40 says: "Every other
value is this spec's choice", its decision D15 (log entry 14), and PAL holds the open parameter of D9, whatever it is (log
entry 1). -/
def Obligations.ResetValues : Prop :=
  State.reset.src = none ∧ State.reset.cur = 0 ∧ State.reset.done = false ∧ State.reset.err = none ∧
  State.reset.loaded = false ∧ State.reset.palDirty = false ∧ State.reset.pktLen = 0 ∧ State.reset.pktKind = 0 ∧
  State.reset.frameNo = -1 ∧ State.reset.vidInit = false ∧ State.reset.wBlk = 0 ∧ State.reset.hBlk = 0 ∧
  State.reset.vidCount = 0 ∧ State.reset.vidTrueColor = 0 ∧ State.reset.tmrSet = false ∧ State.reset.tmrRate = 0 ∧
  State.reset.tmrSubdiv = 0 ∧ State.reset.audInit = false ∧ State.reset.audUnk = 0 ∧ State.reset.audFlags = 0 ∧
  State.reset.audRate = 0 ∧ State.reset.audBufLen = 0 ∧ State.reset.fmt = .none ∧ State.reset.fd = [] ∧
  State.reset.sm = [] ∧ State.reset.dm = [] ∧ State.reset.pal.length = 768 ∧
  (∀ a, a < 768 → State.reset.pal[a]? = some (Config.palReset a)) ∧
  (∀ k, (State.reset.surf.get k).len = 0) ∧ State.reset.audOut = [] ∧ State.reset.recon = none

/-- The invariant holds at reset. -/
def Obligations.ResetMeetsInvariant : Prop := State.reset.Inv

/-- Every step keeps the invariant, from any state that meets it, inside a SendVideo or not. -/
def Obligations.StepKeepsInvariant : Prop :=
  ∀ s t : State, s.Inv → step s = .next t → t.Inv

/-- From a state that meets the invariant, an enabled step always answers a next state: the model's own stops (an access
outside a surface, log entry 6; a second-level instruction outside its pass, log entry 8) never happen. -/
def Obligations.EnabledStepAnswers : Prop :=
  ∀ s : State, s.Inv → s.loaded = true → s.done = false → s.err = none → ∃ t, step s = .next t

/-! ## Framing opcodes -/

/-- End sets DONE and moves CUR past its 4 bytes, and changes nothing else (R134). -/
def Obligations.EndCompletes : Prop :=
  ∀ s : State, exec (.endStream []) s = .next { s with done := true, cur := s.cur + 4 }

/-- EndPacket reads the next packet header when SRC has its 4 bytes, and otherwise raises Truncated and leaves PKT_LEN,
PKT_KIND and CUR (R135). -/
def Obligations.EndPacketCompletes : Prop :=
  ∀ s : State,
    (s.cur + 8 ≤ s.source.length →
      exec (.endPacket []) s = .next { s with
        pktLen := u16LE s.source (s.cur + 4), pktKind := u16LE s.source (s.cur + 6), cur := s.cur + 8 }) ∧
    (s.source.length < s.cur + 8 → s.recon = none →
      exec (.endPacket []) s = .next { s with err := some .truncated })

/-- The illegal row: UnknownOpcode always, nothing else changed (R136). -/
def Obligations.IllegalRaisesUnknownOpcode : Prop :=
  ∀ (s : State) (len tag : Word16), s.recon = none →
    exec (.illegal len tag) s = .next { s with err := some .unknownOpcode }

/-- A record of one of the nine fixed-size tags with another payload length raises BadConfiguration and executes nothing; the
four buffer opcodes take any length (R138). -/
def Obligations.WrongFixedSizeRaises : Prop :=
  (∀ (s : State) (op : Opcode) (size : Nat) (p : List Byte), s.recon = none →
    (op, size) ∈ [(Opcode.endStream, 0), (.endPacket, 0), (.timer, 6), (.initAudio, 8), (.startAudio, 0),
      (.initVideo, 8), (.sendVideo, 6), (.audioSilent, 6), (.setMode, 6)] →
    p.length ≠ size → exec (op.instr p) s = .next { s with err := some .badConfiguration }) ∧
  (∀ (s : State) (op : Opcode) (p : List Byte), op ∈ [Opcode.frameDataV6, .frameDataV10, .skipMap, .decodingMap] →
    ∃ t, exec (op.instr p) s = .next t ∧ t.err = s.err)

/-! ## Configuration opcodes -/

/-- Timer stores its operands and sets TMR_SET when none was stored before and the product is not zero (R150). -/
def Obligations.TimerCompletes : Prop :=
  ∀ (s : State) (v : TimerFields), s.tmrSet = false → v.rate.toNat * v.subdiv.toNat ≠ 0 →
    exec (.timer (.fields v)) s =
      .next { s with cur := s.cur + 10, tmrRate := v.rate, tmrSubdiv := v.subdiv, tmrSet := true }

/-- InitAudio stores its four fields and sets AUD_INIT when the low two flag bits are 0 (R151). -/
def Obligations.InitAudioCompletes : Prop :=
  ∀ (s : State) (v : InitAudioFields), s.audInit = false → v.flags.toNat % 4 = 0 →
    exec (.initAudio (.fields v)) s = .next { s with
      cur := s.cur + 12, audUnk := v.unk, audFlags := v.flags, audRate := v.sampleRate, audBufLen := v.bufLen,
      audInit := true }

/-- InitVideo stores the geometry and gives the three surfaces 64*w*h bytes of zero (R153); FRAME_NO and everything else
stay. -/
def Obligations.InitVideoCompletes : Prop :=
  ∀ (s : State) (v : InitVideoFields), s.vidInit = false → v.wBlocks ≠ 0 → v.hBlocks ≠ 0 → v.trueColor = 0 →
    ∃ x : Surfaces, (∀ k, (x.get k).wf ∧ (x.get k).len = 64 * v.wBlocks.toNat * v.hBlocks.toNat ∧
        ∀ a, (x.get k).byte a = 0x00) ∧
      exec (.initVideo (.fields v)) s = .next { s with
        cur := s.cur + 12, wBlk := v.wBlocks, hBlk := v.hBlocks, vidCount := v.count, vidTrueColor := 0,
        surf := x, vidInit := true }

/-- StartAudio and SetMode change nothing but CUR (R152, R154). -/
def Obligations.NoOperationRecordsComplete : Prop :=
  (∀ s : State, exec (.startAudio []) s = .next { s with cur := s.cur + 4 }) ∧
  (∀ (s : State) (p : List Byte), p.length = 6 → exec (.setMode p) s = .next { s with cur := s.cur + 10 })

/-- Palette expands each channel of each triple into its slot, sets PAL_DIRTY (also for no triple), ignores the padding, and
leaves every other palette byte and everything else (R155, R113). -/
def Obligations.PaletteCompletes : Prop :=
  ∀ (s : State) (v : PaletteFields), s.pal.length = 768 → 3 * v.palCount.toNat ≤ v.body.length →
    v.palStart.toNat + v.palCount.toNat ≤ 256 →
    ∃ pal : List Byte, pal.length = 768 ∧
      (∀ a, a < 768 → pal.getD a 0 =
        if 3 * v.palStart.toNat ≤ a ∧ a < 3 * (v.palStart.toNat + v.palCount.toNat) then
          let c := v.body.getD (a - 3 * v.palStart.toNat) 0
          (c <<< 2) ||| c
        else s.pal.getD a 0) ∧
      exec (.palette (.fields v)) s =
        .next { s with cur := s.cur + 8 + v.body.length, palDirty := true, pal := pal }

/-- The checks of the configuration opcodes that raise BadConfiguration: a second Timer or a zero product (R150), a second
InitAudio or a set low flag bit (R151), a second InitVideo, a zero side or true colour (R153), and a Palette that is too
short or overruns its payload or the 256 slots (R155). Nothing but ERR changes. -/
def Obligations.ConfigurationChecksRaise : Prop :=
  ∀ s : State, s.recon = none →
    (∀ v : TimerFields, s.tmrSet = true ∨ v.rate.toNat * v.subdiv.toNat = 0 →
      exec (.timer (.fields v)) s = .next { s with err := some .badConfiguration }) ∧
    (∀ v : InitAudioFields, s.audInit = true ∨ v.flags.toNat % 4 ≠ 0 →
      exec (.initAudio (.fields v)) s = .next { s with err := some .badConfiguration }) ∧
    (∀ v : InitVideoFields, s.vidInit = true ∨ v.wBlocks = 0 ∨ v.hBlocks = 0 ∨ v.trueColor ≠ 0 →
      exec (.initVideo (.fields v)) s = .next { s with err := some .badConfiguration }) ∧
    (∀ v : PaletteFields, v.body.length < 3 * v.palCount.toNat ∨ 256 < v.palStart.toNat + v.palCount.toNat →
      exec (.palette (.fields v)) s = .next { s with err := some .badConfiguration }) ∧
    (∀ p : List Byte, p.length < 4 →
      exec (Opcode.palette.instr p) s = .next { s with err := some .badConfiguration })

/-! ## Buffer and audio opcodes -/

/-- Each buffer opcode replaces its buffer whole with the payload, of any length; the two FrameData opcodes set FMT
(R170, R171, R172, R173). Nothing else changes but CUR. -/
def Obligations.BufferOpcodesComplete : Prop :=
  ∀ (s : State) (p : List Byte),
    exec (.frameDataV6 p) s = .next { s with cur := s.cur + 4 + p.length, fd := p, fmt := .v6 } ∧
    exec (.skipMap p) s = .next { s with cur := s.cur + 4 + p.length, sm := p } ∧
    exec (.decodingMap p) s = .next { s with cur := s.cur + 4 + p.length, dm := p } ∧
    exec (.frameDataV10 p) s = .next { s with cur := s.cur + 4 + p.length, fd := p, fmt := .v10 }

/-- AudioFrame appends its samples, AudioSilent appends len samples of 0x80, once the audio stream exists (R180, R181). -/
def Obligations.AudioOpcodesComplete : Prop :=
  ∀ s : State, s.audInit = true →
    (∀ v : AudioFrameFields, v.pcm.length = v.len.toNat →
      exec (.audioFrame (.fields v)) s =
        .next { s with cur := s.cur + 10 + v.len.toNat, audOut := s.audOut ++ [v.pcm] }) ∧
    (∀ v : AudioSilentFields, exec (.audioSilent (.fields v)) s =
      .next { s with cur := s.cur + 10, audOut := s.audOut ++ [List.replicate v.len.toNat 0x80] })

/-- The checks of the audio opcodes and of SendVideo that raise BadConfiguration: fewer than 6 payload bytes, no InitAudio
before, or a length that does not agree with len (R180, R181); no InitVideo or no FrameData before (R220). Nothing but
ERR changes. -/
def Obligations.AudioAndSendVideoChecksRaise : Prop :=
  ∀ s : State, s.recon = none →
    (∀ v : AudioFrameFields, s.audInit = false ∨ v.pcm.length ≠ v.len.toNat →
      exec (.audioFrame (.fields v)) s = .next { s with err := some .badConfiguration }) ∧
    (∀ v : AudioSilentFields, s.audInit = false →
      exec (.audioSilent (.fields v)) s = .next { s with err := some .badConfiguration }) ∧
    (∀ p : List Byte, p.length < 6 →
      exec (Opcode.audioFrame.instr p) s = .next { s with err := some .badConfiguration }) ∧
    (∀ v : SendVideoFields, s.vidInit = false ∨ s.fmt = .none →
      exec (.sendVideo (.fields v)) s = .next { s with err := some .badConfiguration })

/-! ## SendVideo -/

/-- A format-6 frame, decided by its data alone: MapExhausted when FD lacks a map word or a literal that the blocks need,
else OffsetOutOfBounds when an offset copy that executes has its source outside, else it completes, advancing FRAME_NO by
1 and CUR by 10 and changing only the surfaces besides (R220, R222, R225, R233). -/
def Obligations.Format6FrameOutcome : Prop :=
  ∀ (s : State) (v : SendVideoFields), s.Inv → s.recon = none → s.vidInit = true → s.fmt = .v6 →
    (¬s.supplied6 → exec (.sendVideo (.fields v)) s = .next { s with err := some .mapExhausted }) ∧
    (s.supplied6 → ¬s.boundedFrame6 (s.frameNo + 1) →
      exec (.sendVideo (.fields v)) s = .next { s with err := some .offsetOutOfBounds }) ∧
    (s.supplied6 → s.boundedFrame6 (s.frameNo + 1) →
      ∃ x : Surfaces, x.fit s.pixels ∧ exec (.sendVideo (.fields v)) s =
        .next { s with cur := s.cur + 10, frameNo := s.frameNo + 1, surf := x })

/-- A format-10 frame, decided by its data alone: MapExhausted when SM, DM or FD lacks what the blocks need, else
OffsetOutOfBounds when an offset copy has its source outside, else it completes (R220, R249). -/
def Obligations.Format10FrameOutcome : Prop :=
  ∀ (s : State) (v : SendVideoFields), s.Inv → s.recon = none → s.vidInit = true → s.fmt = .v10 →
    (¬s.supplied10 → exec (.sendVideo (.fields v)) s = .next { s with err := some .mapExhausted }) ∧
    (s.supplied10 → ¬s.boundedFrame10 →
      exec (.sendVideo (.fields v)) s = .next { s with err := some .offsetOutOfBounds }) ∧
    (s.supplied10 → s.boundedFrame10 →
      ∃ x : Surfaces, x.fit s.pixels ∧ exec (.sendVideo (.fields v)) s =
        .next { s with cur := s.cur + 10, frameNo := s.frameNo + 1, surf := x })

/-- A format-6 frame of literal blocks only shows the literals, whatever was there before: pixel (c, r) of block b is byte
14 + 2N + 64b + 8r + c of FD (R191, R225, and the scenario S1 generalised). -/
def Obligations.Format6LiteralFrameShowsFrameData : Prop :=
  ∀ (s : State) (v : SendVideoFields), s.Inv → s.vidInit = true → s.fmt = .v6 →
    (∀ b, b < s.blocks → s.word6 b = 0) → 14 + 66 * s.blocks ≤ s.fd.length →
    ∃ t, exec (.sendVideo (.fields v)) s = .next t ∧
      ∀ b r c, b < s.blocks → r < 8 → c < 8 →
        t.surf.f.byte (s.anchor b + r * s.width + c) = s.fd.getD (14 + 2 * s.blocks + 64 * b + 8 * r + c) 0

/-- The references after a format-6 frame that completes: from frame number 1 on R0 is the image shown before the frame, and
from 2 on R1 is what R0 was; otherwise each is untouched (R223, R232). -/
def Obligations.Format6RotatesReferences : Prop :=
  ∀ (s t : State) (v : SendVideoFields), s.Inv → s.fmt = .v6 → s.vidInit = true →
    exec (.sendVideo (.fields v)) s = .next t → t.frameNo = s.frameNo + 1 →
    t.surf.r0 = (if 0 < t.frameNo then s.surf.f else s.surf.r0) ∧
    t.surf.r1 = (if 1 < t.frameNo then s.surf.r0 else s.surf.r1)

/-- With frame number 0 or 1, a format-6 frame neither reads what R0 nor what R1 held before it: two machines that differ
only there show the same image and report the same fault (R232, invariant 5 of D0). -/
def Obligations.EarlyFormat6FramesIgnoreReferences : Prop :=
  ∀ (s : State) (x : Surfaces) (v : SendVideoFields), s.Inv → x.fit s.pixels → x.f = s.surf.f → s.fmt = .v6 →
    s.frameNo ≤ 0 →
    ∃ t u, exec (.sendVideo (.fields v)) s = .next t ∧ exec (.sendVideo (.fields v)) { s with surf := x } = .next u ∧
      t.surf.f = u.surf.f ∧ t.err = u.err ∧ t.frameNo = u.frameNo

/-- A format-10 frame that completes leaves in R0 what R1 held during it (R247, R250), and touches a skipped block in no
surface: the image keeps it, and the workspace, now R1, keeps what R0 held there (R248). -/
def Obligations.Format10RotatesReferencesAndKeepsSkippedBlocks : Prop :=
  ∀ (s t : State) (v : SendVideoFields), s.Inv → s.fmt = .v10 → s.vidInit = true →
    exec (.sendVideo (.fields v)) s = .next t → t.frameNo = s.frameNo + 1 →
    t.surf.r0 = s.surf.r1 ∧
    ∀ b z, b < s.blocks → skippedAt s.sm b = true → inBlock s.width (s.anchor b) z →
      t.surf.f.byte z = s.surf.f.byte z ∧ t.surf.r1.byte z = s.surf.r0.byte z

/-- A format-10 frame that completes shows the workspace at every block that is not skipped: after the swap F and R1 agree
there (R246, R247). -/
def Obligations.Format10ShowsItsWorkspace : Prop :=
  ∀ (s t : State) (v : SendVideoFields), s.Inv → s.fmt = .v10 → s.vidInit = true →
    exec (.sendVideo (.fields v)) s = .next t → t.frameNo = s.frameNo + 1 →
    ∀ b z, b < s.blocks → skippedAt s.sm b = false → inBlock s.width (s.anchor b) z →
      t.surf.f.byte z = t.surf.r1.byte z

/-- A format-10 frame in which every block is skipped leaves F, swaps R0 and R1, and counts as a frame; it reads no map word
and no literal (R247, scenario S3). -/
def Obligations.Format10AllSkippedFrameOnlySwaps : Prop :=
  ∀ (s : State) (v : SendVideoFields), s.Inv → s.recon = none → s.vidInit = true → s.fmt = .v10 →
    s.blocks ≤ 16 * (s.sm.length / 2) → (∀ b, b < s.blocks → skippedAt s.sm b = true) →
    exec (.sendVideo (.fields v)) s = .next { s with
      cur := s.cur + 10, frameNo := s.frameNo + 1, surf := ⟨s.surf.f, s.surf.r1, s.surf.r0⟩ }

/-- Executing a SendVideo as one step gives what executing its second-level instructions one by one gives (R6, R231; the
sub-steps are the model's own, log entry 7). -/
def Obligations.SendVideoIsItsBlockInstructions : Prop :=
  ∀ (s : State) (v : SendVideoFields), s.loaded = true → s.done = false → s.err = none → s.recon = none →
    s.vidInit = true →
    (∀ r, s.fmt = .v6 → openFormat6 s = .ok r →
      ∃ n, runBlocks n { s with recon := some r } = exec (.sendVideo (.fields v)) s) ∧
    (s.fmt = .v10 →
      ∃ n, runBlocks n { s with recon := some (openFormat10 s) } = exec (.sendVideo (.fields v)) s)

/-! ## Block operations -/

/-- F6.LIT and F10.LIT copy the next literal of FD verbatim into block b of F and of R0, and advance the literal cursor by
64 (R191, R225, R242). No other byte of any surface changes. -/
def Obligations.LiteralOperationsComplete : Prop :=
  ∀ (s : State) (r : Recon) (i : Instr) (dst : Role), s.recon = some r → r.surf.fit s.pixels → r.b < s.blocks →
    r.lc + 64 ≤ s.fd.length →
    (i = .f6Lit ∧ dst = .f ∧ r.pass = .f6Pass1) ∨
      (i = .f10Lit ∧ dst = .r0 ∧ r.pass = .f10Pass1 ∧ r.wordDue = true) →
    ∃ x : Surfaces, x.fit s.pixels ∧ (∀ k, k ≠ dst → x.get k = r.surf.get k) ∧
      (∀ row col, row < 8 → col < 8 →
        (x.get dst).byte (s.anchor r.b + row * s.width + col) = s.fd.getD (r.lc + 8 * row + col) 0) ∧
      (∀ z, ¬inBlock s.width (s.anchor r.b) z → (x.get dst).byte z = (r.surf.get dst).byte z) ∧
      exec i s = .next { s with recon := some { r with
        b := r.b + 1, mc := r.mc + 2, lc := r.lc + 64, wordDue := false, surf := x } }

/-- F6.INTER (from frame number 1 on) and F10.PREV (always) copy the region of R0, of R1, at the offset into block b of F,
of R0 (R192, R229, R245). No other byte of any surface changes. -/
def Obligations.ReferenceCopiesComplete : Prop :=
  ∀ (s : State) (r : Recon) (i : Instr) (v : BitVec 15) (dst src : Role), s.recon = some r → r.surf.fit s.pixels →
    r.b < s.blocks → s.inBounds (s.anchor r.b + ((v.toNat : Int) - 0x4000)) = true →
    (i = .f6Inter v ∧ dst = .f ∧ src = .r0 ∧ r.pass = .f6Pass2 ∧ 0 < r.fn) ∨
      (i = .f10Prev v ∧ dst = .r0 ∧ src = .r1 ∧ r.pass = .f10Pass2 ∧ r.wordDue = true) →
    ∃ x : Surfaces, x.fit s.pixels ∧ (∀ k, k ≠ dst → x.get k = r.surf.get k) ∧
      (∀ row col, row < 8 → col < 8 → (x.get dst).byte (s.anchor r.b + row * s.width + col) =
        (r.surf.get src).byte (((s.anchor r.b : Int) + ((v.toNat : Int) - 0x4000)).toNat + row * s.width + col)) ∧
      (∀ z, ¬inBlock s.width (s.anchor r.b) z → (x.get dst).byte z = (r.surf.get dst).byte z) ∧
      exec i s = .next { s with recon := some { r with b := r.b + 1, mc := r.mc + 2, wordDue := false, surf := x } }

/-- F6.INTRA and F10.CUR copy a region of a surface onto a block of the same surface, row by row, a later row reading what
an earlier one wrote (R194, R230, R244). No other surface changes. -/
def Obligations.SelfCopiesComplete : Prop :=
  ∀ (s : State) (r : Recon) (i : Instr) (v : BitVec 15) (dst : Role), s.recon = some r → r.surf.fit s.pixels →
    r.b < s.blocks → s.inBounds (s.anchor r.b + ((v.toNat : Int) - 0x4000)) = true →
    (i = .f6Intra v ∧ dst = .f ∧ r.pass = .f6Pass2) ∨
      (i = .f10Cur v ∧ dst = .r0 ∧ r.pass = .f10Pass2 ∧ r.wordDue = true) →
    ∃ x : Surfaces, x.fit s.pixels ∧ (∀ k, k ≠ dst → x.get k = r.surf.get k) ∧
      (∀ z, (x.get dst).byte z = rowsAfter s.width ((s.anchor r.b : Int) + ((v.toNat : Int) - 0x4000)).toNat
        (s.anchor r.b) (r.surf.get dst).byte 8 z) ∧
      (∀ z, ¬inBlock s.width (s.anchor r.b) z → (x.get dst).byte z = (r.surf.get dst).byte z) ∧
      exec i s = .next { s with recon := some { r with b := r.b + 1, mc := r.mc + 2, wordDue := false, surf := x } }

/-- F6.REF1 copies block b of R1 into F from frame number 2 on, and F10.SHOW copies block b of R0 into F; the skip flag is
consumed (R195, R226, R246). No other byte of any surface changes. That SKIP.N, when it is executed in pass 3, does what
F10.SHOW does is no rule of the spec but the model's choice, log entry 8. -/
def Obligations.CoLocatedCopiesComplete : Prop :=
  ∀ (s : State) (r : Recon), s.recon = some r → r.surf.fit s.pixels → r.b < s.blocks →
    (∀ op, r.pass = .f6Pass1 → 1 < r.fn →
      ∃ x : Surfaces, x.fit s.pixels ∧ x.r0 = r.surf.r0 ∧ x.r1 = r.surf.r1 ∧
        (∀ z, inBlock s.width (s.anchor r.b) z → x.f.byte z = r.surf.r1.byte z) ∧
        (∀ z, ¬inBlock s.width (s.anchor r.b) z → x.f.byte z = r.surf.f.byte z) ∧
        exec (.f6Ref1 op) s =
          .next { s with recon := some { r with b := r.b + 1, mc := r.mc + 2, wordDue := false, surf := x } }) ∧
    (∀ k i, r.pass = .f10Pass3 → r.skip.next s.sm = .ok k → i = .f10Show ∨ i = .skipN →
      ∃ x : Surfaces, x.fit s.pixels ∧ x.r0 = r.surf.r0 ∧ x.r1 = r.surf.r1 ∧
        (∀ z, inBlock s.width (s.anchor r.b) z → x.f.byte z = r.surf.r0.byte z) ∧
        (∀ z, ¬inBlock s.width (s.anchor r.b) z → x.f.byte z = r.surf.f.byte z) ∧
        exec i s = .next { s with recon := some { r with b := r.b + 1, wordDue := false, skip := k.2, surf := x } })

/-- F6.INTER at frame number 0 and F6.REF1 at frame numbers 0 and 1 change no surface, whatever the offset (R226, R229, R232);
nor do F6.NOP2, F10.NOP1 and F10.NOP2 ever (R228, R241, R243). The word is consumed. -/
def Obligations.GatedAndNoOperationWordsComplete : Prop :=
  ∀ (s : State) (r : Recon) (i : Instr), s.recon = some r → r.b < s.blocks →
    (∃ v, i = .f6Inter v ∧ r.pass = .f6Pass2 ∧ r.fn ≤ 0) ∨ (∃ op, i = .f6Ref1 op ∧ r.pass = .f6Pass1 ∧ r.fn ≤ 1) ∨
      (i = .f6Nop2 ∧ r.pass = .f6Pass2) ∨ (∃ op, i = .f10Nop1 op ∧ r.pass = .f10Pass1 ∧ r.wordDue = true) ∨
      (i = .f10Nop2 ∧ r.pass = .f10Pass2 ∧ r.wordDue = true) →
    exec i s = .next { s with recon := some { r with b := r.b + 1, mc := r.mc + 2, wordDue := false } }

/-- SKIP.S touches no surface, consumes no map word and goes on to the next block, in all three passes; SKIP.N in passes 1 and
2 has the block's map word read next (R112, R212, R248). Each consumes one flag. -/
def Obligations.SkipFlagsComplete : Prop :=
  ∀ (s : State) (r : Recon) (k : Bool × SkipStream), s.recon = some r → r.b < s.blocks → r.skip.next s.sm = .ok k →
    ((r.pass = .f10Pass1 ∨ r.pass = .f10Pass2) ∧ r.wordDue = false →
      exec .skipS s = .next { s with recon := some { r with b := r.b + 1, skip := k.2 } } ∧
      exec .skipN s = .next { s with recon := some { r with wordDue := true, skip := k.2 } }) ∧
    (r.pass = .f10Pass3 →
      exec .skipS s = .next { s with recon := some { r with b := r.b + 1, wordDue := false, skip := k.2 } })

/-- An offset copy that executes with its source outside the surface raises OffsetOutOfBounds; the SendVideo in progress is
discarded and nothing but ERR changes (R193, R287, R221). -/
def Obligations.OutOfBoundsCopiesRaise : Prop :=
  ∀ (s : State) (r : Recon) (i : Instr) (v : BitVec 15), s.recon = some r → r.b < s.blocks →
    s.inBounds (s.anchor r.b + ((v.toNat : Int) - 0x4000)) = false →
    (i = .f6Inter v ∧ r.pass = .f6Pass2 ∧ 0 < r.fn) ∨ (i = .f6Intra v ∧ r.pass = .f6Pass2) ∨
      (i = .f10Cur v ∧ r.pass = .f10Pass2 ∧ r.wordDue = true) ∨
      (i = .f10Prev v ∧ r.pass = .f10Pass2 ∧ r.wordDue = true) →
    exec i s = .next { s with err := some .offsetOutOfBounds, recon := none }

/-- A literal that FD does not hold, and a flag that SM does not hold, raise MapExhausted (R191, R213, R286). That SKIP.N can be
executed in pass 3, and then raises as F10.SHOW does, is no rule of the spec but the model's choice, log entry 8. -/
def Obligations.ExhaustedInputsRaise : Prop :=
  ∀ (s : State) (r : Recon) (i : Instr), s.recon = some r → r.b < s.blocks →
    (i = .f6Lit ∧ r.pass = .f6Pass1 ∧ s.fd.length < r.lc + 64) ∨
      (i = .f10Lit ∧ r.pass = .f10Pass1 ∧ r.wordDue = true ∧ s.fd.length < r.lc + 64) ∨
      ((i = .skipS ∨ i = .skipN ∨ i = .f10Show) ∧ r.pass = .f10Pass3 ∧ r.skip.bits = 0 ∧
        s.sm.length < 2 * r.skip.pos + 2) ∨
      ((i = .skipS ∨ i = .skipN) ∧ (r.pass = .f10Pass1 ∨ r.pass = .f10Pass2) ∧ r.wordDue = false ∧
        r.skip.bits = 0 ∧ s.sm.length < 2 * r.skip.pos + 2) →
    exec i s = .next { s with err := some .mapExhausted, recon := none }

/-- A second-level instruction is refused in exactly three cases: no SendVideo is in progress, it is past the last block of the
grid, or what the pass reads next at its block is of another stream than the instruction's. The refusal, and that SKIP.S and
SKIP.N belong to the flags of pass 3 as well, are the model's own, log entry 8. -/
def Obligations.BlockInstructionsNeedTheirPass : Prop :=
  ∀ (s : State) (i : Instr), i.context ≠ .stream →
    (exec i s = .refused .notInPass ↔
      s.recon = none ∨ ∃ r, s.recon = some r ∧ (s.blocks ≤ r.b ∨ ¬i.readAs r.context))

/-! ## Addressing and the skip stream -/

/-- Anchors: in range for every block, the last pixel of the last block being the last byte of the surface (R190). -/
def Obligations.AnchorsAreInRange : Prop :=
  ∀ s : State,
    (∀ b, b < s.blocks → s.anchor b = (8 * (b / s.wBlk.toNat)) * s.width + 8 * (b % s.wBlk.toNat) ∧
      s.anchor b + 7 * s.width + 7 < s.width * s.height) ∧
    (0 < s.blocks → s.anchor (s.blocks - 1) + 7 * s.width + 7 = s.width * s.height - 1)

/-- The bounds check in its equivalent form, sx ≤ W − 8 and sy ≤ H − 8 for the pixel (sx, sy) at the address; all 64 addresses
of the region then lie inside the surface (R193). -/
def Obligations.BoundsCheckMeansInside : Prop :=
  ∀ (s : State) (a : Int), 0 < s.blocks →
    (s.inBounds a = true ↔
      0 ≤ a ∧ a.toNat % s.width ≤ s.width - 8 ∧ a.toNat / s.width + 8 ≤ s.height) ∧
    (s.inBounds a = true → ∀ r c, r < 8 → c < 8 → a.toNat + r * s.width + c < s.width * s.height)

/-- The order of reads and writes does not matter in a copy on one surface whose source is not a little above its destination:
for dy ≥ 0 or dy ≤ −8 or |dx| ≥ 8 each byte of the block is the old byte of the source region (R194). -/
def Obligations.NoOverlapMeansPlainCopy : Prop :=
  ∀ (s : State) (b : Nat) (off : Int) (m : Nat → Byte) (row col : Nat), b < s.blocks →
    s.inBounds (s.sourceAddr b off) = true → row < 8 → col < 8 →
    (8 * ((b / s.wBlk.toNat : Nat) : Int) ≤ s.sourceAddr b off / s.width ∨
      s.sourceAddr b off / s.width ≤ 8 * ((b / s.wBlk.toNat : Nat) : Int) - 8 ∨
      8 ≤ |s.sourceAddr b off % s.width - 8 * ((b % s.wBlk.toNat : Nat) : Int)|) →
    rowsAfter s.width (s.sourceAddr b off).toNat (s.anchor b) m 8 (s.anchor b + row * s.width + col) =
      m ((s.sourceAddr b off).toNat + row * s.width + col)

/-- The skip stream in closed form: the (j+1)-th call since reset delivers bit j mod 16 of word j div 16, which is bit j mod 8
of a byte of SM, as long as the word is there, and otherwise raises MapExhausted, an odd last byte not being a word
(R213, R214, R215). -/
def Obligations.SkipStreamClosedForm : Prop :=
  ∀ (sm : List Byte) (j : Nat),
    (2 * (j / 16) + 2 ≤ sm.length →
      skipCall sm j = .ok (!(u16LE sm (2 * (j / 16))).getLsbD (j % 16)) ∧
      skipCall sm j = .ok (!(sm.getD (2 * (j / 16) + (j % 16) / 8) 0).getLsbD (j % 8))) ∧
    (sm.length < 2 * (j / 16) + 2 → skipCall sm j = .error (.raised .mapExhausted))

/-! ## The host interface -/

/-- The header check: a source shorter than 25 bytes is Truncated whatever its bytes, and one whose first 25 bytes are not the
header is InvalidSignature; everything else is at its reset value, LOADED being 0 (R130, R282). That SRC stays bound after the
fault is the model's deduction, log entry 19. -/
def Obligations.LoadChecksTheHeader : Prop :=
  ∀ src : List Byte,
    (src.length < 25 →
      load src = ({ State.reset with src := some src, err := some .truncated }, .fault .truncated)) ∧
    (25 ≤ src.length → src.take 25 ≠ [0x49, 0x6E, 0x74, 0x65, 0x72, 0x70, 0x6C, 0x61, 0x79, 0x20, 0x4D, 0x56, 0x45, 0x20,
        0x46, 0x69, 0x6C, 0x65, 0x1A, 0x1A, 0x00, 0x00, 0x01, 0x33, 0x11] →
      load src = ({ State.reset with src := some src, err := some .invalidSignature }, .fault .invalidSignature))

/-- A source whose header is right and whose first packet has kind 3 or more is loaded without a step, CUR being at its first
record (R131, R260); one that ends before the packet header is Truncated with CUR at 25 (R288). That SRC stays bound after the
fault is the model's deduction, log entry 19. -/
def Obligations.LoadReadsTheFirstPacketHeader : Prop :=
  ∀ src : List Byte, src.take 25 = [0x49, 0x6E, 0x74, 0x65, 0x72, 0x70, 0x6C, 0x61, 0x79, 0x20, 0x4D, 0x56, 0x45, 0x20,
        0x46, 0x69, 0x6C, 0x65, 0x1A, 0x1A, 0x00, 0x00, 0x01, 0x33, 0x11] →
    (src.length < 29 →
      load src = ({ State.reset with src := some src, cur := 25, err := some .truncated }, .fault .truncated)) ∧
    (29 ≤ src.length → 3 ≤ (u16LE src 27).toNat →
      load src = ({ State.reset with
        src := some src, cur := 29, pktLen := u16LE src 25, pktKind := u16LE src 27, loaded := true }, .ok))

/-- When `load` returns ok, the engine is loaded, no fault is latched, and either an End was met or the packet whose header was
read last is a video packet (R260). -/
def Obligations.LoadDrainsConfigurationPackets : Prop :=
  ∀ (src : List Byte) (t : State), load src = (t, .ok) →
    t.src = some src ∧ t.loaded = true ∧ t.err = none ∧ (t.done = true ∨ 3 ≤ t.pktKind.toNat)

/-- The results of `advanceFrame` that run no step: the latched code after a fault, for ever (R266); endOfStream after End, for
ever (R261); endOfStream when nothing is loaded, as R265 has a total model answer. The state stays in all three. -/
def Obligations.IdleAdvanceFrame : Prop :=
  ∀ s : State,
    (∀ c, s.err = some c → advanceFrame s = (s, .fault c)) ∧
    (s.err = none → s.loaded = true → s.done = true → advanceFrame s = (s, .endOfStream)) ∧
    (s.err = none → s.loaded = false → advanceFrame s = (s, .endOfStream))

/-- The results of `advanceFrame`, told from the state that it leaves: ok exactly when no fault was raised and FRAME_NO has
grown, a SendVideo having completed in the call; endOfStream exactly when no fault was raised and it has not grown, a loaded
engine being then at its End; the code exactly when that code was raised, and then FRAME_NO may have grown too, since a
SendVideo that completed earlier in the call keeps its effect (R261, its point (g) for the last). -/
def Obligations.AdvanceFrameCountsFrames : Prop :=
  ∀ (s t : State) (x : HostResult), s.Inv → s.recon = none → s.err = none → advanceFrame s = (t, x) →
    s.frameNo ≤ t.frameNo ∧
    (x = .ok ↔ t.err = none ∧ s.frameNo < t.frameNo) ∧
    (x = .endOfStream ↔ t.err = none ∧ t.frameNo = s.frameNo) ∧
    (x = .endOfStream → s.loaded = true → t.done = true) ∧
    (∀ c, x = .fault c ↔ t.err = some c)

/-- Every host command always returns (R139): from a state that meets the invariant, with no SendVideo in progress, the model's
fuel never runs out and none of its own stops happens (log entry 12); and the state it leaves meets the invariant again. -/
def Obligations.HostCommandsReturn : Prop :=
  ∀ (s : State) (c : HostCommand), s.Inv → s.recon = none →
    (hostCommand c s).2 ≠ .stuck ∧ (hostCommand c s).1.Inv ∧ (hostCommand c s).1.recon = none

/-- `clearPaletteDirty` clears PAL_DIRTY and nothing else (R263); `destroy` leaves the state of reset, SRC unbound (R264). That
both return ok is the model's choice, log entry 23: the rules give neither a result. -/
def Obligations.ClearAndDestroy : Prop :=
  ∀ s : State, hostCommand .clearPaletteDirty s = ({ s with palDirty := false }, .ok) ∧
    hostCommand .destroy s = (State.reset, .ok)

/-- The accessors (R262): what each returns, before and after its register is configured; frameRate is the exact rational of
R114. -/
def Obligations.AccessorValues : Prop :=
  ∀ s : State, s.Inv →
    currentSurface s = ((List.range (s.width * s.height)).map s.surf.f.byte, s.width, s.height) ∧
    palette s = s.pal ∧ paletteDirty s = s.palDirty ∧ frameIndex s = s.frameNo ∧
    dimensions s = (8 * s.wBlk.toNat, 8 * s.hBlk.toNat) ∧
    (s.vidInit = false → currentSurface s = ([], 0, 0) ∧ dimensions s = (0, 0)) ∧
    (s.tmrSet = false → frameRate s = none) ∧
    (s.tmrSet = true → ∃ q, frameRate s = some q ∧ q * (s.tmrRate.toNat * s.tmrSubdiv.toNat : Nat) = 1000000) ∧
    (s.audInit = false → audioStream s = none) ∧
    (s.audInit = true → audioStream s = some (s.audOut, s.audRate))
end

