-- ==== Sys2Proof/Laws/Memory.lean ====
section
/-! SUPPORT. What the memory operations do: read after write, the frame of a write, and that the canonical form is kept. -/

namespace Sys2Proof.Machine

/-- The listed cells are in canonical form for a space of length `n`. -/
abbrev CellsWf (cells : List Host.Cell) (n : Nat) : Prop :=
  cells.Pairwise (fun c d => c.1 < d.1) ∧ ∀ c ∈ cells, c.2 ≠ 0#8 ∧ c.1 < n

/-- An address below every listed one reads as 0x00. -/
theorem cellAt_of_lt {cells : List Host.Cell} {a : Nat} (h : ∀ c ∈ cells, a < c.1) : cellAt cells a = 0#8 := by
  induction cells with
  | nil => rfl
  | cons c cs ih =>
    have hc := h c (by simp)
    obtain ⟨b, w⟩ := c
    rw [cellAt, if_neg (by simp only at hc; omega)]
    exact ih fun d hd => h d (by simp [hd])

/-- Read after write of one byte, and the frame, in strictly rising cells. -/
theorem cellAt_putCell {cells : List Host.Cell} (h : cells.Pairwise (fun c d => c.1 < d.1)) (a x : Nat) (v : Byte) :
    cellAt (putCell cells a v) x = if x = a then v else cellAt cells x := by
  induction cells with
  | nil =>
    rw [putCell]
    by_cases hv : v = 0#8 <;> simp [hv, cellAt]
  | cons c cs ih =>
    obtain ⟨b, w⟩ := c
    obtain ⟨hb, hcs⟩ := List.pairwise_cons.1 h
    have low : ∀ y, y ≤ b → cellAt cs y = 0#8 := fun y hy =>
      cellAt_of_lt fun d hd => by have := hb d hd; simp only at this; omega
    rw [putCell]
    split
    · next hab =>
      split
      · next hv =>
        by_cases hx : x = a
        · subst hx; rw [cellAt, if_neg (by omega), low _ (by omega), if_pos rfl, hv]
        · rw [if_neg hx]
      · rw [cellAt]
    · split
      · next hab heq =>
        subst heq
        split
        · next hv =>
          by_cases hx : x = a
          · subst hx; rw [if_pos rfl, low _ (by omega), hv]
          · rw [if_neg hx, cellAt, if_neg hx]
        · rw [cellAt, cellAt]
          by_cases hx : x = a <;> simp [hx]
      · next hab hne =>
        rw [cellAt, cellAt, ih hcs]
        by_cases hx : x = b
        · subst hx; rw [if_pos rfl, if_pos rfl, if_neg (by omega)]
        · rw [if_neg hx, if_neg hx]

/-- A cell of the written list is the written byte or a cell of the old list at another address. -/
theorem mem_putCell {cells : List Host.Cell} {a : Nat} {v : Byte} {c : Host.Cell} (h : c ∈ putCell cells a v) :
    (c = (a, v) ∧ v ≠ 0#8) ∨ c ∈ cells := by
  induction cells with
  | nil =>
    rw [putCell] at h
    split at h
    · simp at h
    · next hv => exact .inl ⟨by simpa using h, hv⟩
  | cons d cs ih =>
    obtain ⟨b, w⟩ := d
    rw [putCell] at h
    split at h
    · split at h
      · exact .inr h
      · next hv =>
        rcases List.mem_cons.1 h with rfl | h
        · exact .inl ⟨rfl, hv⟩
        · exact .inr h
    · split at h
      · split at h
        · exact .inr (List.mem_cons_of_mem _ h)
        · next hv =>
          rcases List.mem_cons.1 h with rfl | h
          · exact .inl ⟨rfl, hv⟩
          · exact .inr (List.mem_cons_of_mem _ h)
      · rcases List.mem_cons.1 h with rfl | h
        · exact .inr (by simp)
        · rcases ih h with h | h
          · exact .inl h
          · exact .inr (List.mem_cons_of_mem _ h)

/-- Writing one byte keeps the canonical form. -/
theorem putCell_wf {cells : List Host.Cell} {n a : Nat} {v : Byte} (h : CellsWf cells n) (ha : a < n) :
    CellsWf (putCell cells a v) n := by
  refine ⟨?_, fun c hc => ?_⟩
  · have hp := h.1
    clear h
    induction cells with
    | nil => rw [putCell]; split <;> simp
    | cons d cs ih =>
      obtain ⟨b, w⟩ := d
      obtain ⟨hb, hcs⟩ := List.pairwise_cons.1 hp
      rw [putCell]
      split
      · next hab =>
        split
        · exact hp
        · refine List.pairwise_cons.2 ⟨fun e he => ?_, hp⟩
          rcases List.mem_cons.1 he with rfl | he
          · exact hab
          · exact lt_trans hab (hb e he)
      · split
        · next heq =>
          subst heq
          split
          · exact hcs
          · exact List.pairwise_cons.2 ⟨hb, hcs⟩
        · next hab hne =>
          refine List.pairwise_cons.2 ⟨fun e he => ?_, ih hcs⟩
          rcases mem_putCell he with ⟨rfl, -⟩ | he
          · simp only; omega
          · exact hb e he
  · rcases mem_putCell hc with ⟨rfl, hv⟩ | hc
    · exact ⟨hv, ha⟩
    · exact h.2 c hc

/-- Writing a run of bytes keeps the canonical form. -/
theorem putCells_wf {n : Nat} (vs : List Byte) {cells : List Host.Cell} {a : Nat} (h : CellsWf cells n)
    (ha : a + vs.length ≤ n) : CellsWf (putCells cells a vs) n := by
  induction vs generalizing cells a with
  | nil => exact h
  | cons v vs ih =>
    simp only [List.length_cons] at ha
    exact ih (putCell_wf h (by omega)) (by omega)

/-- Read after write of a run of bytes, and its frame. -/
theorem cellAt_putCells {n : Nat} (vs : List Byte) {cells : List Host.Cell} {a : Nat} (h : CellsWf cells n)
    (ha : a + vs.length ≤ n) (x : Nat) :
    cellAt (putCells cells a vs) x = if a ≤ x ∧ x < a + vs.length then vs.getD (x - a) 0 else cellAt cells x := by
  induction vs generalizing cells a with
  | nil => rw [putCells, if_neg (by simp)]
  | cons v vs ih =>
    simp only [List.length_cons] at ha ⊢
    rw [putCells, ih (putCell_wf h (by omega)) (by omega), cellAt_putCell h.1]
    by_cases hx : x = a
    · subst hx; rw [if_neg (by omega), if_pos rfl, if_pos (by omega)]; simp
    · by_cases hr : a + 1 ≤ x ∧ x < a + 1 + vs.length
      · rw [if_pos hr, if_pos (by omega)]
        obtain ⟨k, rfl⟩ : ∃ k, x = a + 1 + k := ⟨x - (a + 1), by omega⟩
        rw [show a + 1 + k - (a + 1) = k by omega, show a + 1 + k - a = k + 1 by omega, List.getD_cons_succ]
      · rw [if_neg hr, if_neg hx, if_neg (by omega)]

/-- A space of zeros is in canonical form, and every byte of it is 0x00. -/
theorem Memory.zero_wf (n : Nat) : (Memory.zero n).wf := by simp [Memory.zero, Memory.wf]

/-- The surfaces after reset are in canonical form. -/
theorem State.reset_surf_wf (k : Role) : (State.reset.surf.get k).wf := by
  cases k <;> exact Memory.zero_wf 0

@[simp] theorem Memory.zero_len (n : Nat) : (Memory.zero n).len = n := rfl
@[simp] theorem Memory.zero_byte (n a : Nat) : (Memory.zero n).byte a = 0#8 := rfl

/-- All a read can do. -/
theorem Memory.read_eq (m : Memory) (a n : Nat) (x : Res (List Byte)) (h : m.read a n = x) :
    (a + n ≤ m.len ∧ x = .ok ((List.range n).map fun i => m.byte (a + i))) ∨
    (m.len < a + n ∧ x = .error (.stopped .outsideSpace)) := by
  subst h
  unfold Memory.read
  split
  · exact .inl ⟨‹_›, rfl⟩
  · exact .inr ⟨by omega, rfl⟩

/-- All a write inside the space does, in a space in canonical form: the length stays, the form is kept, the run holds the
bytes written, and every other byte is as before. -/
theorem Memory.write_ok (m : Memory) (hm : m.wf) (a : Nat) (vs : List Byte) (h : a + vs.length ≤ m.len) :
    ∃ m', m.write a vs = .ok m' ∧ m'.wf ∧ m'.len = m.len ∧
      ∀ x, m'.byte x = if a ≤ x ∧ x < a + vs.length then vs.getD (x - a) 0 else m.byte x := by
  refine ⟨{ m with cells := putCells m.cells a vs }, ?_, putCells_wf vs hm h, rfl, fun x => ?_⟩
  · rw [Memory.write, if_pos h]
  · exact cellAt_putCells vs hm h x

/-- A write that succeeds lies inside the space. -/
theorem Memory.write_inv {m m' : Memory} {a : Nat} {vs : List Byte} (h : m.write a vs = .ok m') :
    a + vs.length ≤ m.len ∧ m' = { m with cells := putCells m.cells a vs } := by
  unfold Memory.write at h
  split at h
  · exact ⟨‹_›, by cases h; rfl⟩
  · cases h

/-- Copying the first n bytes of one surface over another, when n is the length of both, gives the source itself. -/
theorem Memory.copyFirst_ok (d s : Memory) (hd : d.wf) (hs : s.wf) (n : Nat) (hdn : d.len = n) (hsn : s.len = n) :
    d.copyFirst s n = .ok s := by
  have h1 : s.cells.filter (fun c => c.1 < n) = s.cells :=
    List.filter_eq_self.2 fun c hc => by have := (hs.2 c hc).2; simp; omega
  have h2 : d.cells.filter (fun c => n ≤ c.1) = [] :=
    List.filter_eq_nil_iff.2 fun c hc => by have := (hd.2 c hc).2; simp; omega
  rw [Memory.copyFirst, if_pos ⟨hdn.ge, hsn.ge⟩, h1, h2]
  cases s; simp_all

/-- Copying keeps the canonical form whatever the lengths. -/
theorem Memory.copyFirst_wf {d s m : Memory} {n : Nat} (hd : d.wf) (hs : s.wf) (h : d.copyFirst s n = .ok m) :
    m.wf ∧ m.len = d.len := by
  unfold Memory.copyFirst at h
  split at h
  · next hn =>
    cases h
    refine ⟨⟨List.pairwise_append.2 ⟨hs.1.filter _, hd.1.filter _, fun c hc e he => ?_⟩, fun c hc => ?_⟩, rfl⟩
    · have h1 := (List.mem_filter.1 hc).2
      have h2 := (List.mem_filter.1 he).2
      simp only [decide_eq_true_eq] at h1 h2
      omega
    · rcases List.mem_append.1 hc with hc | hc
      · obtain ⟨hc, h1⟩ := List.mem_filter.1 hc
        simp only [decide_eq_true_eq] at h1
        exact ⟨(hs.2 c hc).1, by simp only; omega⟩
      · exact hd.2 c (List.mem_filter.1 hc).1
  · cases h

/-- Equal reads mean equal data: two spaces of one length in canonical form that read alike are equal. -/
theorem Memory.ext_byte {m k : Memory} (hm : m.wf) (hk : k.wf) (hl : m.len = k.len) (h : ∀ a, m.byte a = k.byte a) :
    m = k := by
  obtain ⟨n, xs⟩ := m
  obtain ⟨n', ys⟩ := k
  simp only at hl
  subst hl
  simp only [Memory.wf, Memory.byte] at hm hk h
  suffices xs = ys by rw [this]
  induction xs generalizing ys with
  | nil =>
    cases ys with
    | nil => rfl
    | cons d ys =>
      have := h d.1
      obtain ⟨b, w⟩ := d
      simp only [cellAt, if_true] at this
      exact absurd this.symm (hk.2 (b, w) (by simp)).1
  | cons c xs ih =>
    obtain ⟨a, v⟩ := c
    obtain ⟨hax, hxs⟩ := List.pairwise_cons.1 hm.1
    have hv := (hm.2 (a, v) (by simp)).1
    cases ys with
    | nil =>
      have := h a
      simp only [cellAt, if_true] at this
      exact absurd this hv
    | cons d ys =>
      obtain ⟨b, w⟩ := d
      obtain ⟨hby, hys⟩ := List.pairwise_cons.1 hk.1
      have hw := (hk.2 (b, w) (by simp)).1
      have hab : a = b := by
        rcases Nat.lt_trichotomy a b with hlt | heq | hlt
        · have := h a
          rw [cellAt, if_pos rfl, cellAt, if_neg (by omega),
            cellAt_of_lt fun e he => by have := hby e he; simp only at this; omega] at this
          exact absurd this hv
        · exact heq
        · have := h b
          rw [cellAt, if_neg (by omega), cellAt, if_pos rfl,
            cellAt_of_lt fun e he => by have := hax e he; simp only at this; omega] at this
          exact absurd this.symm hw
      subst hab
      have hvw : v = w := by simpa [cellAt] using h a
      subst hvw
      rw [ih ⟨hxs, fun e he => hm.2 e (List.mem_cons_of_mem _ he)⟩ ys
        ⟨hys, fun e he => hk.2 e (List.mem_cons_of_mem _ he)⟩ fun y => ?_]
      by_cases hy : y = a
      · subst hy
        rw [cellAt_of_lt fun e he => hax e he, cellAt_of_lt fun e he => hby e he]
      · have := h y
        rwa [cellAt, if_neg hy, cellAt, if_neg hy] at this

end Sys2Proof.Machine
end

