-- ==== Sys2Proof/Laws/State.lean ====
section
/-! SUPPORT. One lemma per field per update of the state and of a SendVideo in progress, each true by unfolding, so that no
later proof unfolds a record update. -/

namespace Sys2Proof.Machine

/-! ### State.setDone -/

@[simp] theorem State.setDone_src (s : State) : (s.setDone).src = s.src := rfl
@[simp] theorem State.setDone_cur (s : State) : (s.setDone).cur = s.cur := rfl
@[simp] theorem State.setDone_done (s : State) : (s.setDone).done = true := rfl
@[simp] theorem State.setDone_palDirty (s : State) : (s.setDone).palDirty = s.palDirty := rfl
@[simp] theorem State.setDone_err (s : State) : (s.setDone).err = s.err := rfl
@[simp] theorem State.setDone_loaded (s : State) : (s.setDone).loaded = s.loaded := rfl
@[simp] theorem State.setDone_pktLen (s : State) : (s.setDone).pktLen = s.pktLen := rfl
@[simp] theorem State.setDone_pktKind (s : State) : (s.setDone).pktKind = s.pktKind := rfl
@[simp] theorem State.setDone_frameNo (s : State) : (s.setDone).frameNo = s.frameNo := rfl
@[simp] theorem State.setDone_vidInit (s : State) : (s.setDone).vidInit = s.vidInit := rfl
@[simp] theorem State.setDone_wBlk (s : State) : (s.setDone).wBlk = s.wBlk := rfl
@[simp] theorem State.setDone_hBlk (s : State) : (s.setDone).hBlk = s.hBlk := rfl
@[simp] theorem State.setDone_vidCount (s : State) : (s.setDone).vidCount = s.vidCount := rfl
@[simp] theorem State.setDone_vidTrueColor (s : State) : (s.setDone).vidTrueColor = s.vidTrueColor := rfl
@[simp] theorem State.setDone_tmrSet (s : State) : (s.setDone).tmrSet = s.tmrSet := rfl
@[simp] theorem State.setDone_tmrRate (s : State) : (s.setDone).tmrRate = s.tmrRate := rfl
@[simp] theorem State.setDone_tmrSubdiv (s : State) : (s.setDone).tmrSubdiv = s.tmrSubdiv := rfl
@[simp] theorem State.setDone_audInit (s : State) : (s.setDone).audInit = s.audInit := rfl
@[simp] theorem State.setDone_audUnk (s : State) : (s.setDone).audUnk = s.audUnk := rfl
@[simp] theorem State.setDone_audFlags (s : State) : (s.setDone).audFlags = s.audFlags := rfl
@[simp] theorem State.setDone_audRate (s : State) : (s.setDone).audRate = s.audRate := rfl
@[simp] theorem State.setDone_audBufLen (s : State) : (s.setDone).audBufLen = s.audBufLen := rfl
@[simp] theorem State.setDone_fmt (s : State) : (s.setDone).fmt = s.fmt := rfl
@[simp] theorem State.setDone_fd (s : State) : (s.setDone).fd = s.fd := rfl
@[simp] theorem State.setDone_sm (s : State) : (s.setDone).sm = s.sm := rfl
@[simp] theorem State.setDone_dm (s : State) : (s.setDone).dm = s.dm := rfl
@[simp] theorem State.setDone_pal (s : State) : (s.setDone).pal = s.pal := rfl
@[simp] theorem State.setDone_surf (s : State) : (s.setDone).surf = s.surf := rfl
@[simp] theorem State.setDone_audOut (s : State) : (s.setDone).audOut = s.audOut := rfl
@[simp] theorem State.setDone_recon (s : State) : (s.setDone).recon = s.recon := rfl

/-! ### State.setPalDirty -/

@[simp] theorem State.setPalDirty_src (s : State) : (s.setPalDirty).src = s.src := rfl
@[simp] theorem State.setPalDirty_cur (s : State) : (s.setPalDirty).cur = s.cur := rfl
@[simp] theorem State.setPalDirty_done (s : State) : (s.setPalDirty).done = s.done := rfl
@[simp] theorem State.setPalDirty_palDirty (s : State) : (s.setPalDirty).palDirty = true := rfl
@[simp] theorem State.setPalDirty_err (s : State) : (s.setPalDirty).err = s.err := rfl
@[simp] theorem State.setPalDirty_loaded (s : State) : (s.setPalDirty).loaded = s.loaded := rfl
@[simp] theorem State.setPalDirty_pktLen (s : State) : (s.setPalDirty).pktLen = s.pktLen := rfl
@[simp] theorem State.setPalDirty_pktKind (s : State) : (s.setPalDirty).pktKind = s.pktKind := rfl
@[simp] theorem State.setPalDirty_frameNo (s : State) : (s.setPalDirty).frameNo = s.frameNo := rfl
@[simp] theorem State.setPalDirty_vidInit (s : State) : (s.setPalDirty).vidInit = s.vidInit := rfl
@[simp] theorem State.setPalDirty_wBlk (s : State) : (s.setPalDirty).wBlk = s.wBlk := rfl
@[simp] theorem State.setPalDirty_hBlk (s : State) : (s.setPalDirty).hBlk = s.hBlk := rfl
@[simp] theorem State.setPalDirty_vidCount (s : State) : (s.setPalDirty).vidCount = s.vidCount := rfl
@[simp] theorem State.setPalDirty_vidTrueColor (s : State) : (s.setPalDirty).vidTrueColor = s.vidTrueColor := rfl
@[simp] theorem State.setPalDirty_tmrSet (s : State) : (s.setPalDirty).tmrSet = s.tmrSet := rfl
@[simp] theorem State.setPalDirty_tmrRate (s : State) : (s.setPalDirty).tmrRate = s.tmrRate := rfl
@[simp] theorem State.setPalDirty_tmrSubdiv (s : State) : (s.setPalDirty).tmrSubdiv = s.tmrSubdiv := rfl
@[simp] theorem State.setPalDirty_audInit (s : State) : (s.setPalDirty).audInit = s.audInit := rfl
@[simp] theorem State.setPalDirty_audUnk (s : State) : (s.setPalDirty).audUnk = s.audUnk := rfl
@[simp] theorem State.setPalDirty_audFlags (s : State) : (s.setPalDirty).audFlags = s.audFlags := rfl
@[simp] theorem State.setPalDirty_audRate (s : State) : (s.setPalDirty).audRate = s.audRate := rfl
@[simp] theorem State.setPalDirty_audBufLen (s : State) : (s.setPalDirty).audBufLen = s.audBufLen := rfl
@[simp] theorem State.setPalDirty_fmt (s : State) : (s.setPalDirty).fmt = s.fmt := rfl
@[simp] theorem State.setPalDirty_fd (s : State) : (s.setPalDirty).fd = s.fd := rfl
@[simp] theorem State.setPalDirty_sm (s : State) : (s.setPalDirty).sm = s.sm := rfl
@[simp] theorem State.setPalDirty_dm (s : State) : (s.setPalDirty).dm = s.dm := rfl
@[simp] theorem State.setPalDirty_pal (s : State) : (s.setPalDirty).pal = s.pal := rfl
@[simp] theorem State.setPalDirty_surf (s : State) : (s.setPalDirty).surf = s.surf := rfl
@[simp] theorem State.setPalDirty_audOut (s : State) : (s.setPalDirty).audOut = s.audOut := rfl
@[simp] theorem State.setPalDirty_recon (s : State) : (s.setPalDirty).recon = s.recon := rfl

/-! ### State.clearPalDirty -/

@[simp] theorem State.clearPalDirty_src (s : State) : (s.clearPalDirty).src = s.src := rfl
@[simp] theorem State.clearPalDirty_cur (s : State) : (s.clearPalDirty).cur = s.cur := rfl
@[simp] theorem State.clearPalDirty_done (s : State) : (s.clearPalDirty).done = s.done := rfl
@[simp] theorem State.clearPalDirty_palDirty (s : State) : (s.clearPalDirty).palDirty = false := rfl
@[simp] theorem State.clearPalDirty_err (s : State) : (s.clearPalDirty).err = s.err := rfl
@[simp] theorem State.clearPalDirty_loaded (s : State) : (s.clearPalDirty).loaded = s.loaded := rfl
@[simp] theorem State.clearPalDirty_pktLen (s : State) : (s.clearPalDirty).pktLen = s.pktLen := rfl
@[simp] theorem State.clearPalDirty_pktKind (s : State) : (s.clearPalDirty).pktKind = s.pktKind := rfl
@[simp] theorem State.clearPalDirty_frameNo (s : State) : (s.clearPalDirty).frameNo = s.frameNo := rfl
@[simp] theorem State.clearPalDirty_vidInit (s : State) : (s.clearPalDirty).vidInit = s.vidInit := rfl
@[simp] theorem State.clearPalDirty_wBlk (s : State) : (s.clearPalDirty).wBlk = s.wBlk := rfl
@[simp] theorem State.clearPalDirty_hBlk (s : State) : (s.clearPalDirty).hBlk = s.hBlk := rfl
@[simp] theorem State.clearPalDirty_vidCount (s : State) : (s.clearPalDirty).vidCount = s.vidCount := rfl
@[simp] theorem State.clearPalDirty_vidTrueColor (s : State) : (s.clearPalDirty).vidTrueColor = s.vidTrueColor := rfl
@[simp] theorem State.clearPalDirty_tmrSet (s : State) : (s.clearPalDirty).tmrSet = s.tmrSet := rfl
@[simp] theorem State.clearPalDirty_tmrRate (s : State) : (s.clearPalDirty).tmrRate = s.tmrRate := rfl
@[simp] theorem State.clearPalDirty_tmrSubdiv (s : State) : (s.clearPalDirty).tmrSubdiv = s.tmrSubdiv := rfl
@[simp] theorem State.clearPalDirty_audInit (s : State) : (s.clearPalDirty).audInit = s.audInit := rfl
@[simp] theorem State.clearPalDirty_audUnk (s : State) : (s.clearPalDirty).audUnk = s.audUnk := rfl
@[simp] theorem State.clearPalDirty_audFlags (s : State) : (s.clearPalDirty).audFlags = s.audFlags := rfl
@[simp] theorem State.clearPalDirty_audRate (s : State) : (s.clearPalDirty).audRate = s.audRate := rfl
@[simp] theorem State.clearPalDirty_audBufLen (s : State) : (s.clearPalDirty).audBufLen = s.audBufLen := rfl
@[simp] theorem State.clearPalDirty_fmt (s : State) : (s.clearPalDirty).fmt = s.fmt := rfl
@[simp] theorem State.clearPalDirty_fd (s : State) : (s.clearPalDirty).fd = s.fd := rfl
@[simp] theorem State.clearPalDirty_sm (s : State) : (s.clearPalDirty).sm = s.sm := rfl
@[simp] theorem State.clearPalDirty_dm (s : State) : (s.clearPalDirty).dm = s.dm := rfl
@[simp] theorem State.clearPalDirty_pal (s : State) : (s.clearPalDirty).pal = s.pal := rfl
@[simp] theorem State.clearPalDirty_surf (s : State) : (s.clearPalDirty).surf = s.surf := rfl
@[simp] theorem State.clearPalDirty_audOut (s : State) : (s.clearPalDirty).audOut = s.audOut := rfl
@[simp] theorem State.clearPalDirty_recon (s : State) : (s.clearPalDirty).recon = s.recon := rfl

/-! ### State.latch -/

@[simp] theorem State.latch_src (s : State) (c : ErrCode) : (s.latch c).src = s.src := rfl
@[simp] theorem State.latch_cur (s : State) (c : ErrCode) : (s.latch c).cur = s.cur := rfl
@[simp] theorem State.latch_done (s : State) (c : ErrCode) : (s.latch c).done = s.done := rfl
@[simp] theorem State.latch_palDirty (s : State) (c : ErrCode) : (s.latch c).palDirty = s.palDirty := rfl
@[simp] theorem State.latch_err (s : State) (c : ErrCode) : (s.latch c).err = some c := rfl
@[simp] theorem State.latch_loaded (s : State) (c : ErrCode) : (s.latch c).loaded = s.loaded := rfl
@[simp] theorem State.latch_pktLen (s : State) (c : ErrCode) : (s.latch c).pktLen = s.pktLen := rfl
@[simp] theorem State.latch_pktKind (s : State) (c : ErrCode) : (s.latch c).pktKind = s.pktKind := rfl
@[simp] theorem State.latch_frameNo (s : State) (c : ErrCode) : (s.latch c).frameNo = s.frameNo := rfl
@[simp] theorem State.latch_vidInit (s : State) (c : ErrCode) : (s.latch c).vidInit = s.vidInit := rfl
@[simp] theorem State.latch_wBlk (s : State) (c : ErrCode) : (s.latch c).wBlk = s.wBlk := rfl
@[simp] theorem State.latch_hBlk (s : State) (c : ErrCode) : (s.latch c).hBlk = s.hBlk := rfl
@[simp] theorem State.latch_vidCount (s : State) (c : ErrCode) : (s.latch c).vidCount = s.vidCount := rfl
@[simp] theorem State.latch_vidTrueColor (s : State) (c : ErrCode) : (s.latch c).vidTrueColor = s.vidTrueColor := rfl
@[simp] theorem State.latch_tmrSet (s : State) (c : ErrCode) : (s.latch c).tmrSet = s.tmrSet := rfl
@[simp] theorem State.latch_tmrRate (s : State) (c : ErrCode) : (s.latch c).tmrRate = s.tmrRate := rfl
@[simp] theorem State.latch_tmrSubdiv (s : State) (c : ErrCode) : (s.latch c).tmrSubdiv = s.tmrSubdiv := rfl
@[simp] theorem State.latch_audInit (s : State) (c : ErrCode) : (s.latch c).audInit = s.audInit := rfl
@[simp] theorem State.latch_audUnk (s : State) (c : ErrCode) : (s.latch c).audUnk = s.audUnk := rfl
@[simp] theorem State.latch_audFlags (s : State) (c : ErrCode) : (s.latch c).audFlags = s.audFlags := rfl
@[simp] theorem State.latch_audRate (s : State) (c : ErrCode) : (s.latch c).audRate = s.audRate := rfl
@[simp] theorem State.latch_audBufLen (s : State) (c : ErrCode) : (s.latch c).audBufLen = s.audBufLen := rfl
@[simp] theorem State.latch_fmt (s : State) (c : ErrCode) : (s.latch c).fmt = s.fmt := rfl
@[simp] theorem State.latch_fd (s : State) (c : ErrCode) : (s.latch c).fd = s.fd := rfl
@[simp] theorem State.latch_sm (s : State) (c : ErrCode) : (s.latch c).sm = s.sm := rfl
@[simp] theorem State.latch_dm (s : State) (c : ErrCode) : (s.latch c).dm = s.dm := rfl
@[simp] theorem State.latch_pal (s : State) (c : ErrCode) : (s.latch c).pal = s.pal := rfl
@[simp] theorem State.latch_surf (s : State) (c : ErrCode) : (s.latch c).surf = s.surf := rfl
@[simp] theorem State.latch_audOut (s : State) (c : ErrCode) : (s.latch c).audOut = s.audOut := rfl
@[simp] theorem State.latch_recon (s : State) (c : ErrCode) : (s.latch c).recon = s.recon := rfl

/-! ### State.raise -/

@[simp] theorem State.raise_src (s : State) (c : ErrCode) : (s.raise c).src = s.src := rfl
@[simp] theorem State.raise_cur (s : State) (c : ErrCode) : (s.raise c).cur = s.cur := rfl
@[simp] theorem State.raise_done (s : State) (c : ErrCode) : (s.raise c).done = s.done := rfl
@[simp] theorem State.raise_palDirty (s : State) (c : ErrCode) : (s.raise c).palDirty = s.palDirty := rfl
@[simp] theorem State.raise_err (s : State) (c : ErrCode) : (s.raise c).err = some c := rfl
@[simp] theorem State.raise_loaded (s : State) (c : ErrCode) : (s.raise c).loaded = s.loaded := rfl
@[simp] theorem State.raise_pktLen (s : State) (c : ErrCode) : (s.raise c).pktLen = s.pktLen := rfl
@[simp] theorem State.raise_pktKind (s : State) (c : ErrCode) : (s.raise c).pktKind = s.pktKind := rfl
@[simp] theorem State.raise_frameNo (s : State) (c : ErrCode) : (s.raise c).frameNo = s.frameNo := rfl
@[simp] theorem State.raise_vidInit (s : State) (c : ErrCode) : (s.raise c).vidInit = s.vidInit := rfl
@[simp] theorem State.raise_wBlk (s : State) (c : ErrCode) : (s.raise c).wBlk = s.wBlk := rfl
@[simp] theorem State.raise_hBlk (s : State) (c : ErrCode) : (s.raise c).hBlk = s.hBlk := rfl
@[simp] theorem State.raise_vidCount (s : State) (c : ErrCode) : (s.raise c).vidCount = s.vidCount := rfl
@[simp] theorem State.raise_vidTrueColor (s : State) (c : ErrCode) : (s.raise c).vidTrueColor = s.vidTrueColor := rfl
@[simp] theorem State.raise_tmrSet (s : State) (c : ErrCode) : (s.raise c).tmrSet = s.tmrSet := rfl
@[simp] theorem State.raise_tmrRate (s : State) (c : ErrCode) : (s.raise c).tmrRate = s.tmrRate := rfl
@[simp] theorem State.raise_tmrSubdiv (s : State) (c : ErrCode) : (s.raise c).tmrSubdiv = s.tmrSubdiv := rfl
@[simp] theorem State.raise_audInit (s : State) (c : ErrCode) : (s.raise c).audInit = s.audInit := rfl
@[simp] theorem State.raise_audUnk (s : State) (c : ErrCode) : (s.raise c).audUnk = s.audUnk := rfl
@[simp] theorem State.raise_audFlags (s : State) (c : ErrCode) : (s.raise c).audFlags = s.audFlags := rfl
@[simp] theorem State.raise_audRate (s : State) (c : ErrCode) : (s.raise c).audRate = s.audRate := rfl
@[simp] theorem State.raise_audBufLen (s : State) (c : ErrCode) : (s.raise c).audBufLen = s.audBufLen := rfl
@[simp] theorem State.raise_fmt (s : State) (c : ErrCode) : (s.raise c).fmt = s.fmt := rfl
@[simp] theorem State.raise_fd (s : State) (c : ErrCode) : (s.raise c).fd = s.fd := rfl
@[simp] theorem State.raise_sm (s : State) (c : ErrCode) : (s.raise c).sm = s.sm := rfl
@[simp] theorem State.raise_dm (s : State) (c : ErrCode) : (s.raise c).dm = s.dm := rfl
@[simp] theorem State.raise_pal (s : State) (c : ErrCode) : (s.raise c).pal = s.pal := rfl
@[simp] theorem State.raise_surf (s : State) (c : ErrCode) : (s.raise c).surf = s.surf := rfl
@[simp] theorem State.raise_audOut (s : State) (c : ErrCode) : (s.raise c).audOut = s.audOut := rfl
@[simp] theorem State.raise_recon (s : State) (c : ErrCode) : (s.raise c).recon = none := rfl

/-! ### State.retire -/

@[simp] theorem State.retire_src (s : State) (n : Nat) : (s.retire n).src = s.src := rfl
@[simp] theorem State.retire_cur (s : State) (n : Nat) : (s.retire n).cur = s.cur + 4 + n := rfl
@[simp] theorem State.retire_done (s : State) (n : Nat) : (s.retire n).done = s.done := rfl
@[simp] theorem State.retire_palDirty (s : State) (n : Nat) : (s.retire n).palDirty = s.palDirty := rfl
@[simp] theorem State.retire_err (s : State) (n : Nat) : (s.retire n).err = s.err := rfl
@[simp] theorem State.retire_loaded (s : State) (n : Nat) : (s.retire n).loaded = s.loaded := rfl
@[simp] theorem State.retire_pktLen (s : State) (n : Nat) : (s.retire n).pktLen = s.pktLen := rfl
@[simp] theorem State.retire_pktKind (s : State) (n : Nat) : (s.retire n).pktKind = s.pktKind := rfl
@[simp] theorem State.retire_frameNo (s : State) (n : Nat) : (s.retire n).frameNo = s.frameNo := rfl
@[simp] theorem State.retire_vidInit (s : State) (n : Nat) : (s.retire n).vidInit = s.vidInit := rfl
@[simp] theorem State.retire_wBlk (s : State) (n : Nat) : (s.retire n).wBlk = s.wBlk := rfl
@[simp] theorem State.retire_hBlk (s : State) (n : Nat) : (s.retire n).hBlk = s.hBlk := rfl
@[simp] theorem State.retire_vidCount (s : State) (n : Nat) : (s.retire n).vidCount = s.vidCount := rfl
@[simp] theorem State.retire_vidTrueColor (s : State) (n : Nat) : (s.retire n).vidTrueColor = s.vidTrueColor := rfl
@[simp] theorem State.retire_tmrSet (s : State) (n : Nat) : (s.retire n).tmrSet = s.tmrSet := rfl
@[simp] theorem State.retire_tmrRate (s : State) (n : Nat) : (s.retire n).tmrRate = s.tmrRate := rfl
@[simp] theorem State.retire_tmrSubdiv (s : State) (n : Nat) : (s.retire n).tmrSubdiv = s.tmrSubdiv := rfl
@[simp] theorem State.retire_audInit (s : State) (n : Nat) : (s.retire n).audInit = s.audInit := rfl
@[simp] theorem State.retire_audUnk (s : State) (n : Nat) : (s.retire n).audUnk = s.audUnk := rfl
@[simp] theorem State.retire_audFlags (s : State) (n : Nat) : (s.retire n).audFlags = s.audFlags := rfl
@[simp] theorem State.retire_audRate (s : State) (n : Nat) : (s.retire n).audRate = s.audRate := rfl
@[simp] theorem State.retire_audBufLen (s : State) (n : Nat) : (s.retire n).audBufLen = s.audBufLen := rfl
@[simp] theorem State.retire_fmt (s : State) (n : Nat) : (s.retire n).fmt = s.fmt := rfl
@[simp] theorem State.retire_fd (s : State) (n : Nat) : (s.retire n).fd = s.fd := rfl
@[simp] theorem State.retire_sm (s : State) (n : Nat) : (s.retire n).sm = s.sm := rfl
@[simp] theorem State.retire_dm (s : State) (n : Nat) : (s.retire n).dm = s.dm := rfl
@[simp] theorem State.retire_pal (s : State) (n : Nat) : (s.retire n).pal = s.pal := rfl
@[simp] theorem State.retire_surf (s : State) (n : Nat) : (s.retire n).surf = s.surf := rfl
@[simp] theorem State.retire_audOut (s : State) (n : Nat) : (s.retire n).audOut = s.audOut := rfl
@[simp] theorem State.retire_recon (s : State) (n : Nat) : (s.retire n).recon = s.recon := rfl

/-! ### State.enqueue -/

@[simp] theorem State.enqueue_src (s : State) (buf : List Byte) : (s.enqueue buf).src = s.src := rfl
@[simp] theorem State.enqueue_cur (s : State) (buf : List Byte) : (s.enqueue buf).cur = s.cur := rfl
@[simp] theorem State.enqueue_done (s : State) (buf : List Byte) : (s.enqueue buf).done = s.done := rfl
@[simp] theorem State.enqueue_palDirty (s : State) (buf : List Byte) : (s.enqueue buf).palDirty = s.palDirty := rfl
@[simp] theorem State.enqueue_err (s : State) (buf : List Byte) : (s.enqueue buf).err = s.err := rfl
@[simp] theorem State.enqueue_loaded (s : State) (buf : List Byte) : (s.enqueue buf).loaded = s.loaded := rfl
@[simp] theorem State.enqueue_pktLen (s : State) (buf : List Byte) : (s.enqueue buf).pktLen = s.pktLen := rfl
@[simp] theorem State.enqueue_pktKind (s : State) (buf : List Byte) : (s.enqueue buf).pktKind = s.pktKind := rfl
@[simp] theorem State.enqueue_frameNo (s : State) (buf : List Byte) : (s.enqueue buf).frameNo = s.frameNo := rfl
@[simp] theorem State.enqueue_vidInit (s : State) (buf : List Byte) : (s.enqueue buf).vidInit = s.vidInit := rfl
@[simp] theorem State.enqueue_wBlk (s : State) (buf : List Byte) : (s.enqueue buf).wBlk = s.wBlk := rfl
@[simp] theorem State.enqueue_hBlk (s : State) (buf : List Byte) : (s.enqueue buf).hBlk = s.hBlk := rfl
@[simp] theorem State.enqueue_vidCount (s : State) (buf : List Byte) : (s.enqueue buf).vidCount = s.vidCount := rfl
@[simp] theorem State.enqueue_vidTrueColor (s : State) (buf : List Byte) : (s.enqueue buf).vidTrueColor = s.vidTrueColor := rfl
@[simp] theorem State.enqueue_tmrSet (s : State) (buf : List Byte) : (s.enqueue buf).tmrSet = s.tmrSet := rfl
@[simp] theorem State.enqueue_tmrRate (s : State) (buf : List Byte) : (s.enqueue buf).tmrRate = s.tmrRate := rfl
@[simp] theorem State.enqueue_tmrSubdiv (s : State) (buf : List Byte) : (s.enqueue buf).tmrSubdiv = s.tmrSubdiv := rfl
@[simp] theorem State.enqueue_audInit (s : State) (buf : List Byte) : (s.enqueue buf).audInit = s.audInit := rfl
@[simp] theorem State.enqueue_audUnk (s : State) (buf : List Byte) : (s.enqueue buf).audUnk = s.audUnk := rfl
@[simp] theorem State.enqueue_audFlags (s : State) (buf : List Byte) : (s.enqueue buf).audFlags = s.audFlags := rfl
@[simp] theorem State.enqueue_audRate (s : State) (buf : List Byte) : (s.enqueue buf).audRate = s.audRate := rfl
@[simp] theorem State.enqueue_audBufLen (s : State) (buf : List Byte) : (s.enqueue buf).audBufLen = s.audBufLen := rfl
@[simp] theorem State.enqueue_fmt (s : State) (buf : List Byte) : (s.enqueue buf).fmt = s.fmt := rfl
@[simp] theorem State.enqueue_fd (s : State) (buf : List Byte) : (s.enqueue buf).fd = s.fd := rfl
@[simp] theorem State.enqueue_sm (s : State) (buf : List Byte) : (s.enqueue buf).sm = s.sm := rfl
@[simp] theorem State.enqueue_dm (s : State) (buf : List Byte) : (s.enqueue buf).dm = s.dm := rfl
@[simp] theorem State.enqueue_pal (s : State) (buf : List Byte) : (s.enqueue buf).pal = s.pal := rfl
@[simp] theorem State.enqueue_surf (s : State) (buf : List Byte) : (s.enqueue buf).surf = s.surf := rfl
@[simp] theorem State.enqueue_audOut (s : State) (buf : List Byte) : (s.enqueue buf).audOut = s.audOut ++ [buf] := rfl
@[simp] theorem State.enqueue_recon (s : State) (buf : List Byte) : (s.enqueue buf).recon = s.recon := rfl

/-! ### State.commit -/

@[simp] theorem State.commit_src (s : State) (r : Recon) : (s.commit r).src = s.src := rfl
@[simp] theorem State.commit_cur (s : State) (r : Recon) : (s.commit r).cur = s.cur + 4 + 6 := rfl
@[simp] theorem State.commit_done (s : State) (r : Recon) : (s.commit r).done = s.done := rfl
@[simp] theorem State.commit_palDirty (s : State) (r : Recon) : (s.commit r).palDirty = s.palDirty := rfl
@[simp] theorem State.commit_err (s : State) (r : Recon) : (s.commit r).err = s.err := rfl
@[simp] theorem State.commit_loaded (s : State) (r : Recon) : (s.commit r).loaded = s.loaded := rfl
@[simp] theorem State.commit_pktLen (s : State) (r : Recon) : (s.commit r).pktLen = s.pktLen := rfl
@[simp] theorem State.commit_pktKind (s : State) (r : Recon) : (s.commit r).pktKind = s.pktKind := rfl
@[simp] theorem State.commit_frameNo (s : State) (r : Recon) : (s.commit r).frameNo = r.fn := rfl
@[simp] theorem State.commit_vidInit (s : State) (r : Recon) : (s.commit r).vidInit = s.vidInit := rfl
@[simp] theorem State.commit_wBlk (s : State) (r : Recon) : (s.commit r).wBlk = s.wBlk := rfl
@[simp] theorem State.commit_hBlk (s : State) (r : Recon) : (s.commit r).hBlk = s.hBlk := rfl
@[simp] theorem State.commit_vidCount (s : State) (r : Recon) : (s.commit r).vidCount = s.vidCount := rfl
@[simp] theorem State.commit_vidTrueColor (s : State) (r : Recon) : (s.commit r).vidTrueColor = s.vidTrueColor := rfl
@[simp] theorem State.commit_tmrSet (s : State) (r : Recon) : (s.commit r).tmrSet = s.tmrSet := rfl
@[simp] theorem State.commit_tmrRate (s : State) (r : Recon) : (s.commit r).tmrRate = s.tmrRate := rfl
@[simp] theorem State.commit_tmrSubdiv (s : State) (r : Recon) : (s.commit r).tmrSubdiv = s.tmrSubdiv := rfl
@[simp] theorem State.commit_audInit (s : State) (r : Recon) : (s.commit r).audInit = s.audInit := rfl
@[simp] theorem State.commit_audUnk (s : State) (r : Recon) : (s.commit r).audUnk = s.audUnk := rfl
@[simp] theorem State.commit_audFlags (s : State) (r : Recon) : (s.commit r).audFlags = s.audFlags := rfl
@[simp] theorem State.commit_audRate (s : State) (r : Recon) : (s.commit r).audRate = s.audRate := rfl
@[simp] theorem State.commit_audBufLen (s : State) (r : Recon) : (s.commit r).audBufLen = s.audBufLen := rfl
@[simp] theorem State.commit_fmt (s : State) (r : Recon) : (s.commit r).fmt = s.fmt := rfl
@[simp] theorem State.commit_fd (s : State) (r : Recon) : (s.commit r).fd = s.fd := rfl
@[simp] theorem State.commit_sm (s : State) (r : Recon) : (s.commit r).sm = s.sm := rfl
@[simp] theorem State.commit_dm (s : State) (r : Recon) : (s.commit r).dm = s.dm := rfl
@[simp] theorem State.commit_pal (s : State) (r : Recon) : (s.commit r).pal = s.pal := rfl
@[simp] theorem State.commit_surf (s : State) (r : Recon) : (s.commit r).surf = r.surf := rfl
@[simp] theorem State.commit_audOut (s : State) (r : Recon) : (s.commit r).audOut = s.audOut := rfl
@[simp] theorem State.commit_recon (s : State) (r : Recon) : (s.commit r).recon = none := rfl

/-! ### State.ready -/

@[simp] theorem State.ready_src (s : State) : (s.ready).src = s.src := rfl
@[simp] theorem State.ready_cur (s : State) : (s.ready).cur = s.cur := rfl
@[simp] theorem State.ready_done (s : State) : (s.ready).done = false := rfl
@[simp] theorem State.ready_palDirty (s : State) : (s.ready).palDirty = s.palDirty := rfl
@[simp] theorem State.ready_err (s : State) : (s.ready).err = none := rfl
@[simp] theorem State.ready_loaded (s : State) : (s.ready).loaded = true := rfl
@[simp] theorem State.ready_pktLen (s : State) : (s.ready).pktLen = s.pktLen := rfl
@[simp] theorem State.ready_pktKind (s : State) : (s.ready).pktKind = s.pktKind := rfl
@[simp] theorem State.ready_frameNo (s : State) : (s.ready).frameNo = s.frameNo := rfl
@[simp] theorem State.ready_vidInit (s : State) : (s.ready).vidInit = s.vidInit := rfl
@[simp] theorem State.ready_wBlk (s : State) : (s.ready).wBlk = s.wBlk := rfl
@[simp] theorem State.ready_hBlk (s : State) : (s.ready).hBlk = s.hBlk := rfl
@[simp] theorem State.ready_vidCount (s : State) : (s.ready).vidCount = s.vidCount := rfl
@[simp] theorem State.ready_vidTrueColor (s : State) : (s.ready).vidTrueColor = s.vidTrueColor := rfl
@[simp] theorem State.ready_tmrSet (s : State) : (s.ready).tmrSet = s.tmrSet := rfl
@[simp] theorem State.ready_tmrRate (s : State) : (s.ready).tmrRate = s.tmrRate := rfl
@[simp] theorem State.ready_tmrSubdiv (s : State) : (s.ready).tmrSubdiv = s.tmrSubdiv := rfl
@[simp] theorem State.ready_audInit (s : State) : (s.ready).audInit = s.audInit := rfl
@[simp] theorem State.ready_audUnk (s : State) : (s.ready).audUnk = s.audUnk := rfl
@[simp] theorem State.ready_audFlags (s : State) : (s.ready).audFlags = s.audFlags := rfl
@[simp] theorem State.ready_audRate (s : State) : (s.ready).audRate = s.audRate := rfl
@[simp] theorem State.ready_audBufLen (s : State) : (s.ready).audBufLen = s.audBufLen := rfl
@[simp] theorem State.ready_fmt (s : State) : (s.ready).fmt = s.fmt := rfl
@[simp] theorem State.ready_fd (s : State) : (s.ready).fd = s.fd := rfl
@[simp] theorem State.ready_sm (s : State) : (s.ready).sm = s.sm := rfl
@[simp] theorem State.ready_dm (s : State) : (s.ready).dm = s.dm := rfl
@[simp] theorem State.ready_pal (s : State) : (s.ready).pal = s.pal := rfl
@[simp] theorem State.ready_surf (s : State) : (s.ready).surf = s.surf := rfl
@[simp] theorem State.ready_audOut (s : State) : (s.ready).audOut = s.audOut := rfl
@[simp] theorem State.ready_recon (s : State) : (s.ready).recon = none := rfl

/-! ### Recon.nextWord -/

@[simp] theorem Recon.nextWord_pass (r : Recon) : (r.nextWord).pass = r.pass := rfl
@[simp] theorem Recon.nextWord_fn (r : Recon) : (r.nextWord).fn = r.fn := rfl
@[simp] theorem Recon.nextWord_b (r : Recon) : (r.nextWord).b = r.b + 1 := rfl
@[simp] theorem Recon.nextWord_mc (r : Recon) : (r.nextWord).mc = r.mc + 2 := rfl
@[simp] theorem Recon.nextWord_lc (r : Recon) : (r.nextWord).lc = r.lc := rfl
@[simp] theorem Recon.nextWord_wordDue (r : Recon) : (r.nextWord).wordDue = false := rfl
@[simp] theorem Recon.nextWord_skip (r : Recon) : (r.nextWord).skip = r.skip := rfl
@[simp] theorem Recon.nextWord_surf (r : Recon) : (r.nextWord).surf = r.surf := rfl

/-! ### Recon.nextBlock -/

@[simp] theorem Recon.nextBlock_pass (r : Recon) : (r.nextBlock).pass = r.pass := rfl
@[simp] theorem Recon.nextBlock_fn (r : Recon) : (r.nextBlock).fn = r.fn := rfl
@[simp] theorem Recon.nextBlock_b (r : Recon) : (r.nextBlock).b = r.b + 1 := rfl
@[simp] theorem Recon.nextBlock_mc (r : Recon) : (r.nextBlock).mc = r.mc := rfl
@[simp] theorem Recon.nextBlock_lc (r : Recon) : (r.nextBlock).lc = r.lc := rfl
@[simp] theorem Recon.nextBlock_wordDue (r : Recon) : (r.nextBlock).wordDue = false := rfl
@[simp] theorem Recon.nextBlock_skip (r : Recon) : (r.nextBlock).skip = r.skip := rfl
@[simp] theorem Recon.nextBlock_surf (r : Recon) : (r.nextBlock).surf = r.surf := rfl

/-! ### Recon.enter -/

@[simp] theorem Recon.enter_pass (r : Recon) (p : Pass) (m : Nat) : (r.enter p m).pass = p := rfl
@[simp] theorem Recon.enter_fn (r : Recon) (p : Pass) (m : Nat) : (r.enter p m).fn = r.fn := rfl
@[simp] theorem Recon.enter_b (r : Recon) (p : Pass) (m : Nat) : (r.enter p m).b = 0 := rfl
@[simp] theorem Recon.enter_mc (r : Recon) (p : Pass) (m : Nat) : (r.enter p m).mc = m := rfl
@[simp] theorem Recon.enter_lc (r : Recon) (p : Pass) (m : Nat) : (r.enter p m).lc = r.lc := rfl
@[simp] theorem Recon.enter_wordDue (r : Recon) (p : Pass) (m : Nat) : (r.enter p m).wordDue = false := rfl
@[simp] theorem Recon.enter_skip (r : Recon) (p : Pass) (m : Nat) : (r.enter p m).skip = .reset := rfl
@[simp] theorem Recon.enter_surf (r : Recon) (p : Pass) (m : Nat) : (r.enter p m).surf = r.surf := rfl

/-! ### The surfaces -/

@[simp] theorem Surfaces.get_set_same (x : Surfaces) (m : Memory) (k : Role) : (x.set m k).get k = m := by
  cases k <;> rfl

theorem Surfaces.get_set_ne (x : Surfaces) (m : Memory) {j k : Role} (h : j ≠ k) : (x.set m k).get j = x.get j := by
  cases j <;> cases k <;> first | rfl | exact absurd rfl h

@[simp] theorem swapRefs_f (x : Surfaces) : (swapRefs x).f = x.f := rfl
@[simp] theorem swapRefs_r0 (x : Surfaces) : (swapRefs x).r0 = x.r1 := rfl
@[simp] theorem swapRefs_r1 (x : Surfaces) : (swapRefs x).r1 = x.r0 := rfl

/-- Two sets of surfaces are equal when each role's surface is. -/
theorem Surfaces.ext_get {x y : Surfaces} (h : ∀ k, x.get k = y.get k) : x = y := by
  cases x; cases y
  have hf := h .f; have h0 := h .r0; have h1 := h .r1
  simp only [Surfaces.get] at hf h0 h1
  subst hf h0 h1; rfl

end Sys2Proof.Machine
end

