-- ==== Sys2Proof/Laws/BlockCopy.lean ====
section
/-! SUPPORT. What the block-copy engine does, once per primitive: it completes inside surfaces that fit, and each byte
afterwards. -/

namespace Sys2Proof.Machine

/-! ### Geometry -/

theorem State.pixels_eq (s : State) : s.pixels = 64 * s.blocks := by
  simp only [State.pixels, State.width, State.height, State.blocks]; ring

/-- R190: "All anchors are in range". -/
theorem State.anchor_le (s : State) {b : Nat} (hb : b < s.blocks) : s.anchor b + 7 * s.width + 8 ≤ s.pixels := by
  unfold State.blocks at hb
  have hw : 0 < s.wBlk.toNat := Nat.pos_of_mul_pos_right (Nat.zero_lt_of_lt hb)
  unfold State.anchor State.pixels State.width State.height
  generalize s.wBlk.toNat = w at *
  generalize s.hBlk.toNat = h at *
  have h1 : b / w < h := Nat.div_lt_of_lt_mul hb
  have h2 : b % w < w := Nat.mod_lt _ hw
  generalize b / w = q at *
  generalize b % w = m at *
  nlinarith [Nat.mul_le_mul_right w (Nat.succ_le_of_lt h1)]

/-- R193: the 64 addresses of a source region in bounds lie inside the surface. -/
theorem State.inBounds_le (s : State) {a : Int} (h : s.inBounds a = true) :
    0 ≤ a ∧ a.toNat + 7 * s.width + 8 ≤ s.pixels := by
  simp only [State.inBounds, Bool.and_eq_true, decide_eq_true_eq] at h
  obtain ⟨⟨h0, h1⟩, h2⟩ := h
  refine ⟨h0, ?_⟩
  obtain ⟨n, rfl⟩ := Int.eq_ofNat_of_zero_le h0
  unfold State.pixels
  generalize s.width = w at *
  generalize s.height = v at *
  have h1' : n % w + 8 ≤ w := by exact_mod_cast h1
  have h2' : n / w + 8 ≤ v := by exact_mod_cast h2
  have h3 := Nat.div_add_mod n w
  simp only [Int.toNat_natCast]
  generalize n / w = q at *
  generalize n % w = m at *
  nlinarith [Nat.mul_le_mul_left w h2']

/-- A block offset of 0 is always in bounds (R195). -/
theorem State.inBounds_anchor (s : State) {b : Nat} (hb : b < s.blocks) : s.inBounds (s.sourceAddr b 0) = true := by
  unfold State.blocks at hb
  have hw : 0 < s.wBlk.toNat := Nat.pos_of_mul_pos_right (Nat.zero_lt_of_lt hb)
  have h1 : b / s.wBlk.toNat < s.hBlk.toNat := Nat.div_lt_of_lt_mul hb
  have h2 : b % s.wBlk.toNat < s.wBlk.toNat := Nat.mod_lt _ hw
  have ha : s.anchor b = 8 * (b % s.wBlk.toNat) + s.width * (8 * (b / s.wBlk.toNat)) := by
    unfold State.anchor; ring
  have hlt : 8 * (b % s.wBlk.toNat) < s.width := by unfold State.width; omega
  have hmod : s.anchor b % s.width = 8 * (b % s.wBlk.toNat) := by
    rw [ha, Nat.add_mul_mod_self_left, Nat.mod_eq_of_lt hlt]
  have hdiv : s.anchor b / s.width = 8 * (b / s.wBlk.toNat) := by
    rw [ha, Nat.add_mul_div_left _ _ (by omega), Nat.div_eq_of_lt hlt, Nat.zero_add]
  simp only [State.inBounds, State.sourceAddr, add_zero, Bool.and_eq_true, decide_eq_true_eq]
  refine ⟨⟨by omega, ?_⟩, ?_⟩
  · have : ((s.anchor b % s.width : Nat) : Int) + 8 ≤ (s.width : Int) := by rw [hmod]; unfold State.width; omega
    exact_mod_cast this
  · have : ((s.anchor b / s.width : Nat) : Int) + 8 ≤ (s.height : Int) := by rw [hdiv]; unfold State.height; omega
    exact_mod_cast this

/-! ### Surfaces that fit -/

theorem Surfaces.fit_set {x : Surfaces} {n : Nat} (hx : x.fit n) {m : Memory} (hm : m.wf) (hl : m.len = n) (k : Role) :
    (x.set m k).fit n := by
  intro j
  by_cases h : j = k
  · subst h; rw [Surfaces.get_set_same]; exact ⟨hm, hl⟩
  · rw [Surfaces.get_set_ne _ _ h]; exact hx j

theorem swapRefs_fit {x : Surfaces} {n : Nat} (hx : x.fit n) : (swapRefs x).fit n := by
  intro k
  cases k
  · exact hx .f
  · exact hx .r1
  · exact hx .r0

theorem zeroSurfaces_fit (w h : Word16) : (zeroSurfaces w h).fit (64 * w.toNat * h.toNat) := by
  intro k; cases k <;> exact ⟨Memory.zero_wf _, rfl⟩

/-! ### Rows -/

/-- All that one row of a copy does. -/
theorem copyRow_ok {dst src : Role} {a d n : Nat} {x : Surfaces} (hx : x.fit n) (ha : a + 8 ≤ n) (hd : d + 8 ≤ n) :
    ∃ y, copyRow dst src a d x = .ok y ∧ y.fit n ∧ (∀ k, k ≠ dst → y.get k = x.get k) ∧
      ∀ z, (y.get dst).byte z =
        if d ≤ z ∧ z < d + 8 then (x.get src).byte (a + (z - d)) else (x.get dst).byte z := by
  have hr : (x.get src).read a 8 = .ok ((List.range 8).map fun i => (x.get src).byte (a + i)) := by
    rw [Memory.read, if_pos (by rw [(hx src).2]; exact ha)]
  obtain ⟨m, hm, hwf, hlen, hb⟩ := Memory.write_ok (x.get dst) (hx dst).1 d
    ((List.range 8).map fun i => (x.get src).byte (a + i)) (by simpa [(hx dst).2] using hd)
  refine ⟨x.set m dst, ?_, Surfaces.fit_set hx hwf (hlen.trans (hx dst).2) dst, fun k hk =>
    Surfaces.get_set_ne _ _ hk, fun z => ?_⟩
  · simp only [copyRow, hr, hm, bind, Except.bind]
  · rw [Surfaces.get_set_same, hb]
    simp only [List.length_map, List.length_range]
    split
    · next hz =>
      rw [List.getD_eq_getElem?_getD, List.getElem?_map, List.getElem?_range (by omega)]
      rfl
    · rfl

/-- The rows of a copy, by induction on how many: what each byte of the destination is after `k` rows. -/
theorem copyRows_fold {dst src : Role} {w a d n : Nat} {x : Surfaces} (hx : x.fit n) (k : Nat)
    (ha : ∀ r, r < k → a + r * w + 8 ≤ n) (hd : ∀ r, r < k → d + r * w + 8 ≤ n) :
    ∃ y, (List.range k).foldlM (fun y r => copyRow dst src (a + r * w) (d + r * w) y) x = .ok y ∧ y.fit n ∧
      (∀ j, j ≠ dst → y.get j = x.get j) ∧
      (dst = src → ∀ z, (y.get dst).byte z = rowsAfter w a d (x.get dst).byte k z) ∧
      (dst ≠ src → ∀ z, ((∃ r, r < k ∧ d + r * w ≤ z ∧ z < d + r * w + 8) →
          (y.get dst).byte z = (x.get src).byte (a + (z - d))) ∧
        ((¬∃ r, r < k ∧ d + r * w ≤ z ∧ z < d + r * w + 8) → (y.get dst).byte z = (x.get dst).byte z)) := by
  induction k with
  | zero =>
    refine ⟨x, rfl, hx, fun _ _ => rfl, fun _ _ => rfl, fun _ z => ⟨?_, fun _ => rfl⟩⟩
    rintro ⟨r, hr, -⟩; omega
  | succ k ih =>
    obtain ⟨y, hy, hfit, hfr, hself, hother⟩ := ih (fun r hr => ha r (by omega)) fun r hr => hd r (by omega)
    obtain ⟨u, hu, hufit, hufr, hub⟩ := copyRow_ok (dst := dst) (src := src) hfit (ha k (by omega)) (hd k (by omega))
    refine ⟨u, ?_, hufit, fun j hj => (hufr j hj).trans (hfr j hj), fun h z => ?_, fun h z => ⟨?_, ?_⟩⟩
    · rw [List.range_succ, List.foldlM_append, hy]
      simp only [List.foldlM_cons, List.foldlM_nil, bind, Except.bind, hu, pure, Except.pure]
    · subst h
      rw [hub z, rowsAfter]
      split
      · rw [hself rfl]
      · rw [hself rfl]
    · rintro ⟨r, hr, h1, h2⟩
      rw [hub z]
      split
      · next hz =>
        rw [hfr src (Ne.symm h)]
        congr 1
        omega
      · next hz =>
        have hrk : r ≠ k := by rintro rfl; exact hz ⟨h1, h2⟩
        exact (hother h z).1 ⟨r, by omega, h1, h2⟩
    · intro hz
      rw [hub z, if_neg fun hk => hz ⟨k, by omega, hk⟩]
      exact (hother h z).2 fun ⟨r, hr, hr'⟩ => hz ⟨r, by omega, hr'⟩

/-- All that `copyBlockWithOffset` does at a block of the grid, its source in bounds (R192, R194). -/
theorem copyBlockWithOffset_ok {s : State} {dst src : Role} {b : Nat} {off : Int} {x : Surfaces} (hx : x.fit s.pixels)
    (hb : b < s.blocks) (hin : s.inBounds (s.sourceAddr b off) = true) :
    ∃ y, copyBlockWithOffset s dst src b off x = .ok y ∧ y.fit s.pixels ∧ (∀ j, j ≠ dst → y.get j = x.get j) ∧
      (dst = src → ∀ z, (y.get dst).byte z =
        rowsAfter s.width (s.sourceAddr b off).toNat (s.anchor b) (x.get dst).byte 8 z) ∧
      (dst ≠ src → ∀ z, (inBlock s.width (s.anchor b) z →
          (y.get dst).byte z = (x.get src).byte ((s.sourceAddr b off).toNat + (z - s.anchor b))) ∧
        (¬inBlock s.width (s.anchor b) z → (y.get dst).byte z = (x.get dst).byte z)) := by
  have ha := (s.inBounds_le hin).2
  have hd := s.anchor_le hb
  obtain ⟨y, hy, h⟩ := copyRows_fold (dst := dst) (src := src) (w := s.width) (a := (s.sourceAddr b off).toNat)
    (d := s.anchor b) hx 8 (fun r hr => by nlinarith) fun r hr => by nlinarith
  exact ⟨y, by rw [copyBlockWithOffset]; simp only [hin, if_true]; exact hy, h⟩

/-- R193: out of bounds, it raises. -/
theorem copyBlockWithOffset_raise {s : State} {dst src : Role} {b : Nat} {off : Int} {x : Surfaces}
    (hin : s.inBounds (s.sourceAddr b off) = false) :
    copyBlockWithOffset s dst src b off x = raised .offsetOutOfBounds := by
  simp [copyBlockWithOffset, hin]

/-- The rows of a literal, by induction on how many. -/
theorem literal_fold {dst : Role} {w d lc n : Nat} {fd : List Byte} {x : Surfaces} (hx : x.fit n) (k : Nat)
    (hw : 8 ≤ w) (hfd : lc + 8 * k ≤ fd.length) (hd : ∀ r, r < k → d + r * w + 8 ≤ n) :
    ∃ y, (List.range k).foldlM (fun (y : Surfaces) r => do
        let m ← (y.get dst).write (d + r * w) (bytesAt fd (lc + 8 * r) 8)
        (Except.ok (y.set m dst) : Res Surfaces)) x = .ok y ∧ y.fit n ∧ (∀ j, j ≠ dst → y.get j = x.get j) ∧
      (∀ r c, r < k → c < 8 → (y.get dst).byte (d + r * w + c) = fd.getD (lc + 8 * r + c) 0) ∧
      ∀ z, (¬∃ r, r < k ∧ d + r * w ≤ z ∧ z < d + r * w + 8) → (y.get dst).byte z = (x.get dst).byte z := by
  induction k with
  | zero => exact ⟨x, rfl, hx, fun _ _ => rfl, by intro r c hr; omega, fun _ _ => rfl⟩
  | succ k ih =>
    obtain ⟨y, hy, hfit, hfr, hlit, hout⟩ := ih (by omega) fun r hr => hd r (by omega)
    have hlen : (bytesAt fd (lc + 8 * k) 8).length = 8 := by
      simp only [bytesAt, List.length_take, List.length_drop]; omega
    have hb : ∀ c, c < 8 → (bytesAt fd (lc + 8 * k) 8).getD c 0 = fd.getD (lc + 8 * k + c) 0 := fun c hc => by
      simp [bytesAt, List.getD_eq_getElem?_getD, hc]
    obtain ⟨m, hm, hwf, hml, hmb⟩ := Memory.write_ok (y.get dst) (hfit dst).1 (d + k * w) (bytesAt fd (lc + 8 * k) 8)
      (by rw [hlen, (hfit dst).2]; exact hd k (by omega))
    rw [hlen] at hmb
    refine ⟨y.set m dst, ?_, Surfaces.fit_set hfit hwf (hml.trans (hfit dst).2) dst, fun j hj =>
      (Surfaces.get_set_ne _ _ hj).trans (hfr j hj), fun r c hr hc => ?_, fun z hz => ?_⟩
    · rw [List.range_succ, List.foldlM_append, hy]
      simp only [List.foldlM_cons, List.foldlM_nil, bind, Except.bind, hm, pure, Except.pure]
    · rw [Surfaces.get_set_same, hmb]
      by_cases hrk : r = k
      · subst hrk
        rw [if_pos (by omega), show d + r * w + c - (d + r * w) = c by omega, hb c hc]
      · have : r < k := by omega
        have hrow : (r + 1) * w ≤ k * w := Nat.mul_le_mul_right w this
        rw [Nat.add_mul, Nat.one_mul] at hrow
        rw [if_neg (by omega), hlit r c this hc]
    · rw [Surfaces.get_set_same, hmb, if_neg fun h => hz ⟨k, by omega, h⟩]
      exact hout z fun ⟨r, hr, h⟩ => hz ⟨r, by omega, h⟩

/-- All that `copyLiteralBlock` does at a block of the grid when the literal is there (R191). -/
theorem copyLiteralBlock_ok {s : State} {dst : Role} {b lc : Nat} {x : Surfaces} (hx : x.fit s.pixels)
    (hb : b < s.blocks) (hl : lc + 64 ≤ s.fd.length) :
    ∃ y, copyLiteralBlock s dst b lc x = .ok y ∧ y.fit s.pixels ∧ (∀ j, j ≠ dst → y.get j = x.get j) ∧
      (∀ r c, r < 8 → c < 8 → (y.get dst).byte (s.anchor b + r * s.width + c) = s.fd.getD (lc + 8 * r + c) 0) ∧
      ∀ z, ¬inBlock s.width (s.anchor b) z → (y.get dst).byte z = (x.get dst).byte z := by
  have hw : 8 ≤ s.width := by
    have : 0 < s.wBlk.toNat := Nat.pos_of_mul_pos_right (Nat.zero_lt_of_lt hb)
    unfold State.width; omega
  have hd := s.anchor_le hb
  obtain ⟨y, hy, h⟩ := literal_fold (dst := dst) (d := s.anchor b) (lc := lc) (fd := s.fd) hx 8 hw (by omega)
    fun r hr => by nlinarith
  exact ⟨y, by rw [copyLiteralBlock, if_neg (by omega)]; exact hy, h⟩

/-- R191: a literal that FD does not hold raises MapExhausted. -/
theorem copyLiteralBlock_raise {s : State} {dst : Role} {b lc : Nat} {x : Surfaces} (hl : s.fd.length < lc + 64) :
    copyLiteralBlock s dst b lc x = raised .mapExhausted := by
  rw [copyLiteralBlock, if_pos (by omega)]

/-- All that `copySurface` does on surfaces that fit: the destination becomes the source (R196). -/
theorem copySurface_ok {s : State} {dst src : Role} {x : Surfaces} (hx : x.fit s.pixels) :
    copySurface s dst src x = .ok (x.set (x.get src) dst) := by
  have h : (x.get dst).copyFirst (x.get src) (s.width * s.height) = .ok (x.get src) :=
    Memory.copyFirst_ok _ _ (hx dst).1 (hx src).1 _ (hx dst).2 (hx src).2
  simp only [copySurface, h, bind, Except.bind]

end Sys2Proof.Machine
end

