-- ==== Sys2Proof/Laws/Decode.lean ====
section
/-! SUPPORT. What the byte-order helpers and the opcode map do: the two directions of every byte split (R11, R62), and the
tag of each opcode (R93). -/

namespace Sys2Proof

theorem lo8_u16 (lo hi : Byte) : lo8 (u16 lo hi) = lo := by
  apply BitVec.eq_of_toNat_eq; simp [lo8, u16]; omega

theorem hi8_u16 (lo hi : Byte) : hi8 (u16 lo hi) = hi := by
  apply BitVec.eq_of_toNat_eq; simp [hi8, u16]; omega

theorem u16_bytes (w : Word16) : u16 (lo8 w) (hi8 w) = w := by
  apply BitVec.eq_of_toNat_eq; simp [u16, lo8, hi8]; omega

theorem u16_toNat (lo hi : Byte) : (u16 lo hi).toNat = lo.toNat + hi.toNat * 256 := by
  simp [u16]; omega

theorem u32_bytes (w : Word32) : u32 (byte32 0 w) (byte32 1 w) (byte32 2 w) (byte32 3 w) = w := by
  apply BitVec.eq_of_toNat_eq; simp [u32, byte32]; omega

theorem byte32_u32 (a b c d : Byte) : byte32 0 (u32 a b c d) = a ∧ byte32 1 (u32 a b c d) = b ∧
    byte32 2 (u32 a b c d) = c ∧ byte32 3 (u32 a b c d) = d := by
  refine ⟨?_, ?_, ?_, ?_⟩ <;> (apply BitVec.eq_of_toNat_eq; simp [u32, byte32]; omega)

theorem u16_length {n : Nat} (h : n ≤ 65535) : (u16 (lo8 (BitVec.ofNat 16 n)) (hi8 (BitVec.ofNat 16 n))).toNat = n := by
  rw [u16_bytes]; simp; omega

@[simp] theorem bytesLE_length (w : Word16) : (bytesLE w).length = 2 := rfl
@[simp] theorem bytesBE_length (w : Word16) : (bytesBE w).length = 2 := rfl
@[simp] theorem bytesLE32_length (w : Word32) : (bytesLE32 w).length = 4 := rfl

/-- Every opcode is found under its tag. -/
theorem Opcode.ofTag_tag (op : Opcode) : Opcode.ofTag op.tag = some op := by cases op <;> rfl

/-- What is found under a tag has that tag. -/
theorem Opcode.tag_of_ofTag {tag : Word16} {op : Opcode} (h : Opcode.ofTag tag = some op) : op.tag = tag := by
  simpa using List.find?_some h

/-- The 15 tags differ. -/
theorem Opcode.tag_injective {a b : Opcode} (h : a.tag = b.tag) : a = b := by
  have := Opcode.ofTag_tag a
  rw [h, Opcode.ofTag_tag b] at this
  exact (Option.some.inj this).symm

/-- The source select and the biased offset of a word put together from them (R110). -/
theorem mapWordOf_fields (s : Bool) (v : BitVec 15) :
    sourceSelect (mapWordOf s v) = s ∧ biasedOffset (mapWordOf s v) = v := by
  have := v.isLt
  constructor
  · cases s <;> simp [sourceSelect, mapWordOf] <;> omega
  · apply BitVec.eq_of_toNat_eq
    cases s <;> simp [biasedOffset, mapWordOf] <;> omega

/-- A word is put together from its fields. -/
theorem mapWordOf_eq (op : Word16) : mapWordOf (sourceSelect op) (biasedOffset op) = op := by
  have := op.isLt
  apply BitVec.eq_of_toNat_eq
  by_cases h : 0x8000 ≤ op.toNat <;> simp [mapWordOf, sourceSelect, biasedOffset, h] <;> omega

/-- A record whose four header bytes are there, with a tag of R93 and its payload (R132). -/
theorem decodeRecord_ok {l0 l1 t0 t1 : Byte} {rest : List Byte} {op : Opcode}
    (ht : Opcode.ofTag (u16 t1 t0) = some op) (hl : (u16 l0 l1).toNat ≤ rest.length) :
    decodeRecord (l0 :: l1 :: t0 :: t1 :: rest) = .ok (op.instr (rest.take (u16 l0 l1).toNat)) := by
  simp [decodeRecord, ht, Nat.not_lt.mpr hl]

/-- A record with any other tag, whatever follows (R136). -/
theorem decodeRecord_illegal {l0 l1 t0 t1 : Byte} {rest : List Byte} (ht : Opcode.ofTag (u16 t1 t0) = none) :
    decodeRecord (l0 :: l1 :: t0 :: t1 :: rest) = .ok (.illegal (u16 l0 l1) (u16 t1 t0)) := by
  simp [decodeRecord, ht]

end Sys2Proof
end

