-- ==== Sys2Proof/Laws/Ops.lean ====
section
/-! SUPPORT. For each shared operation of the meanings, one lemma that says once everything it can do. -/

namespace Sys2Proof.Machine

/-- Everything a second-level instruction can answer with a next state: its effect on the SendVideo in progress, or the
fault that it takes. -/
theorem onBlock_next {ctx : List Context} {op : State → Recon → Res Recon} {s t : State}
    (h : onBlock ctx op s = .next t) :
    ∃ r, s.recon = some r ∧ r.context ∈ ctx ∧ r.b < s.blocks ∧
      ((∃ r', op s r = .ok r' ∧ t = { s with recon := some r' }) ∨ ∃ c, op s r = .error (.raised c) ∧ t = s.raise c) := by
  unfold onBlock at h
  split at h
  · cases h
  · rename_i r hr
    split at h
    · rename_i hc
      refine ⟨r, hr, hc.1, hc.2, ?_⟩
      split at h
      · rename_i r' ho
        exact .inl ⟨r', ho, by cases h; rfl⟩
      · rename_i c ho
        exact .inr ⟨c, ho, by cases h; rfl⟩
      · cases h
    · cases h

/-- At a block of the grid, in a pass that reads the instruction's stream, the instruction has its effect. -/
theorem onBlock_ok {ctx : List Context} {op : State → Recon → Res Recon} {s : State} {r r' : Recon}
    (hr : s.recon = some r) (hc : r.context ∈ ctx) (hb : r.b < s.blocks) (h : op s r = .ok r') :
    onBlock ctx op s = .next { s with recon := some r' } := by
  simp [onBlock, hr, hc, hb, h]

/-- There a fault that it raises is taken. -/
theorem onBlock_raise {ctx : List Context} {op : State → Recon → Res Recon} {s : State} {r : Recon} {c : ErrCode}
    (hr : s.recon = some r) (hc : r.context ∈ ctx) (hb : r.b < s.blocks) (h : op s r = .error (.raised c)) :
    onBlock ctx op s = .next (s.raise c) := by
  simp [onBlock, hr, hc, hb, h, raiseIn]

/-- When it is refused: outside a SendVideo, outside the instruction's passes, or past the grid. -/
theorem onBlock_refused {ctx : List Context} {op : State → Recon → Res Recon} {s : State} :
    onBlock ctx op s = .refused .notInPass ↔
      s.recon = none ∨ ∃ r, s.recon = some r ∧ (s.blocks ≤ r.b ∨ r.context ∉ ctx) := by
  unfold onBlock
  cases hr : s.recon with
  | none => simp
  | some r =>
    simp only [reduceCtorEq, Option.some.injEq, exists_eq_left', false_or]
    split
    · next hc =>
      simp only [show ¬(s.blocks ≤ r.b ∨ r.context ∉ ctx) by rintro (h | h); exacts [by omega, h hc.1], iff_false]
      split <;> simp [raiseIn]
    · next hc =>
      simp only [true_iff]
      by_cases hx : r.context ∈ ctx
      · exact .inl (by by_contra hb; exact hc ⟨hx, by omega⟩)
      · exact .inr hx

/-- R131. -/
theorem readPacketHeader_inv {s : State} {a : Nat} {x : Except ErrCode State} (h : readPacketHeader s a = x) :
    (a + 4 ≤ s.source.length ∧
      x = .ok { s with pktLen := u16LE s.source a, pktKind := u16LE s.source (a + 2), cur := a + 4 }) ∨
    (s.source.length < a + 4 ∧ x = .error .truncated) := by
  subst h
  unfold readPacketHeader
  split
  · exact .inr ⟨by omega, rfl⟩
  · exact .inl ⟨by omega, rfl⟩

/-- R222, R240. -/
theorem mapWordAt_inv {buf : List Byte} {mc : Nat} {x : Res Word16} (h : mapWordAt buf mc = x) :
    (mc + 2 ≤ buf.length ∧ x = .ok (u16LE buf mc)) ∨ (buf.length < mc + 2 ∧ x = .error (.raised .mapExhausted)) := by
  subst h
  unfold mapWordAt
  split
  · exact .inr ⟨by omega, rfl⟩
  · exact .inl ⟨by omega, rfl⟩

/-- R212: the three cases of `skip()`. -/
theorem SkipStream.next_inv {sm : List Byte} {k : SkipStream} {x : Res (Bool × SkipStream)} (h : k.next sm = x) :
    (k.bits = 0 ∧ sm.length < 2 * k.pos + 2 ∧ x = .error (.raised .mapExhausted)) ∨
    (k.bits = 0 ∧ 2 * k.pos + 2 ≤ sm.length ∧ x = .ok ((u16LE sm (2 * k.pos)).toNat % 2 == 0,
      { pos := k.pos + 1, word := u16LE sm (2 * k.pos) >>> 1, bits := 15 })) ∨
    (k.bits ≠ 0 ∧ x = .ok (k.word.toNat % 2 == 0, { k with word := k.word >>> 1, bits := k.bits - 1 })) := by
  subst h
  unfold SkipStream.next
  split
  · rename_i hb
    split
    · exact .inl ⟨hb, by omega, rfl⟩
    · exact .inr (.inl ⟨hb, by omega, rfl⟩)
  · rename_i hb
    exact .inr (.inr ⟨hb, rfl⟩)

/-- SK_BITS stays at most 16 (R210). -/
theorem SkipStream.next_bits {sm : List Byte} {k : SkipStream} {x : Bool × SkipStream} (hk : k.bits ≤ 16)
    (h : k.next sm = .ok x) : x.2.bits ≤ 16 := by
  rcases SkipStream.next_inv h with ⟨_, _, e⟩ | ⟨_, _, e⟩ | ⟨_, e⟩
  · cases e
  · cases e; simp
  · cases e; simp; omega

/-- What each block does to a property of the SendVideo in progress, a pass does. -/
theorem runPass_inv {block : Recon → Res Recon} (P : Recon → Prop)
    (step : ∀ r r', P r → block r = .ok r' → P r') (n : Nat) {r r' : Recon} (hr : P r)
    (h : runPass block n r = .ok r') : P r' := by
  induction n generalizing r with
  | zero => cases h; exact hr
  | succ n ih =>
    cases hb : block r with
    | error e => simp [runPass, hb, bind, Except.bind] at h
    | ok y =>
      simp only [runPass, hb, bind, Except.bind] at h
      exact ih (step r y hr hb) h

/-- A pass whose blocks all complete completes. -/
theorem runPass_ok {block : Recon → Res Recon} (P : Nat → Recon → Prop) (n : Nat)
    (step : ∀ k r, k < n → P k r → ∃ r', block r = .ok r' ∧ P (k + 1) r') {r : Recon} (hr : P 0 r) :
    ∃ r', runPass block n r = .ok r' ∧ P n r' := by
  suffices ∀ m k r, k + m = n → P k r → ∃ r', runPass block m r = .ok r' ∧ P n r' from this n 0 r (by omega) hr
  intro m
  induction m with
  | zero => intro k r hk hp; exact ⟨r, rfl, by simpa [show k = n by omega] using hp⟩
  | succ m ih =>
    intro k r hk hp
    obtain ⟨y, hy, hq⟩ := step k r (by omega) hp
    obtain ⟨z, hz, hn⟩ := ih (k + 1) y (by omega) hq
    exact ⟨z, by simp [runPass, hy, hz, bind, Except.bind], hn⟩

/-- Everything a SendVideo can answer with a next state: the commit, or the fault that it takes (R221). -/
theorem finishVideo_next {s t : State} {x : Res Recon} (h : finishVideo s x = .next t) :
    (∃ r, x = .ok r ∧ t = s.commit r) ∨ ∃ c, x = .error (.raised c) ∧ t = s.raise c := by
  unfold finishVideo at h
  split at h
  · exact .inl ⟨_, rfl, by cases h; rfl⟩
  · exact .inr ⟨_, rfl, by cases h; rfl⟩
  · cases h

@[simp] theorem storeChannels_length (cs pal : List Byte) (a : Nat) : (storeChannels pal a cs).length = pal.length := by
  induction cs generalizing pal a with
  | nil => rfl
  | cons c cs ih => simp [storeChannels, ih]

/-- R155: the palette byte at each address after the source bytes are stored from `a` on. -/
theorem storeChannels_getD (cs pal : List Byte) (a x : Nat) (h : a + cs.length ≤ pal.length) :
    (storeChannels pal a cs).getD x 0 =
      if a ≤ x ∧ x < a + cs.length then expandChannel (cs.getD (x - a) 0) else pal.getD x 0 := by
  induction cs generalizing pal a with
  | nil => rw [if_neg (by simp)]; rfl
  | cons c cs ih =>
    simp only [List.length_cons] at h
    rw [storeChannels, ih _ _ (by simp; omega)]
    rcases Nat.lt_trichotomy x a with hx | hx | hx
    · rw [if_neg (by omega), if_neg (by simp; omega)]
      simp [List.getD_eq_getElem?_getD, show ¬a = x by omega]
    · subst hx
      rw [if_neg (by omega), if_pos (by simp)]
      simp [List.getD_eq_getElem?_getD, show x < pal.length by omega]
    · by_cases hc : x < a + 1 + cs.length
      · rw [if_pos (by omega), if_pos (by simp; omega), show x - a = (x - (a + 1)) + 1 by omega]
        simp
      · rw [if_neg (by omega), if_neg (by simp; omega)]
        simp [List.getD_eq_getElem?_getD, show ¬a = x by omega]

end Sys2Proof.Machine
end

