-- ==== Sys2Proof/Laws/PerInstr.lean ====
section
/-! SUPPORT. A statement about every instruction as syntax, one lemma per constructor: the bits that the encoder writes are
bits of the stream that the instruction belongs to, so no encoding is offered to the decoder of another stream. -/

namespace Sys2Proof.Laws.EncodingStream

open Sys2Proof

/-- The encoding is read by the decoder of the instruction's own stream. -/
def Statement (i : Instr) : Prop := decode i.context (encode i) ≠ .error .wrongStream

/-- A record is never a bit pattern of another stream. -/
theorem record_ne (bytes : List Byte) : decode .stream (.record bytes) ≠ .error .wrongStream := by
  show decodeRecord bytes ≠ .error .wrongStream
  unfold decodeRecord
  split
  · dsimp only
    split
    · simp
    · split <;> simp
  · simp

theorem endStream (p : List Byte) : Statement (.endStream p) := record_ne _
theorem endPacket (p : List Byte) : Statement (.endPacket p) := record_ne _
theorem timer (p : Payload TimerFields) : Statement (.timer p) := record_ne _
theorem initAudio (p : Payload InitAudioFields) : Statement (.initAudio p) := record_ne _
theorem startAudio (p : List Byte) : Statement (.startAudio p) := record_ne _
theorem initVideo (p : Payload InitVideoFields) : Statement (.initVideo p) := record_ne _
theorem frameDataV6 (p : List Byte) : Statement (.frameDataV6 p) := record_ne _
theorem sendVideo (p : Payload SendVideoFields) : Statement (.sendVideo p) := record_ne _
theorem audioFrame (p : Payload AudioFrameFields) : Statement (.audioFrame p) := record_ne _
theorem audioSilent (p : Payload AudioSilentFields) : Statement (.audioSilent p) := record_ne _
theorem setMode (p : List Byte) : Statement (.setMode p) := record_ne _
theorem palette (p : Payload PaletteFields) : Statement (.palette p) := record_ne _
theorem skipMap (p : List Byte) : Statement (.skipMap p) := record_ne _
theorem decodingMap (p : List Byte) : Statement (.decodingMap p) := record_ne _
theorem frameDataV10 (p : List Byte) : Statement (.frameDataV10 p) := record_ne _
theorem illegal (len tag : Word16) : Statement (.illegal len tag) := record_ne _
theorem f6Lit : Statement .f6Lit := by simp [Statement, decode, Instr.context, encode]
theorem f6Ref1 (op : Word16) : Statement (.f6Ref1 op) := by simp [Statement, decode, Instr.context, encode]
theorem f6Nop2 : Statement .f6Nop2 := by simp [Statement, decode, Instr.context, encode]
theorem f6Inter (v : BitVec 15) : Statement (.f6Inter v) := by simp [Statement, decode, Instr.context, encode]
theorem f6Intra (v : BitVec 15) : Statement (.f6Intra v) := by simp [Statement, decode, Instr.context, encode]
theorem f10Lit : Statement .f10Lit := by simp [Statement, decode, Instr.context, encode]
theorem f10Nop1 (op : Word16) : Statement (.f10Nop1 op) := by simp [Statement, decode, Instr.context, encode]
theorem f10Nop2 : Statement .f10Nop2 := by simp [Statement, decode, Instr.context, encode]
theorem f10Cur (v : BitVec 15) : Statement (.f10Cur v) := by simp [Statement, decode, Instr.context, encode]
theorem f10Prev (v : BitVec 15) : Statement (.f10Prev v) := by simp [Statement, decode, Instr.context, encode]
theorem skipS : Statement .skipS := by simp [Statement, decode, Instr.context, encode]
theorem skipN : Statement .skipN := by simp [Statement, decode, Instr.context, encode]
theorem f10Show : Statement .f10Show := by simp [Statement, decode, Instr.context, encode]

end Sys2Proof.Laws.EncodingStream
end

