-- ==== Sys2Proof/Tests/Slice0.lean ====
section
/-! SUPPORT. The model's own tests: the well-formedness smoke test, one word written out for every constructor, one or two
single steps per instruction with results taken from the spec's examples and vectors, and one witness theorem for every
statement that has hypotheses. -/

namespace Sys2Proof.Tests

open Sys2Proof Sys2Proof.Machine

/-! ### Helpers -/

/-- The next state, where there is one. -/
def after (a : Answer) : Option State :=
  match a with
  | .next t => some t
  | .fault _ => none
  | .refused _ => none

/-- A loaded engine whose next record starts with `bytes`, at address 30. -/
def fetching (bytes : List Byte) : State :=
  { State.reset with src := some (List.replicate 30 0 ++ bytes), cur := 30, loaded := true }

/-- A surface of these bytes. -/
def surface (bytes : List Byte) : Memory :=
  match (Memory.zero bytes.length).write 0 bytes with
  | .ok m => m
  | .error _ => .zero 0

/-- A loaded engine with a w × h grid of zeros, about to execute a SendVideo record. -/
def grid (w h : Word16) : State :=
  { fetching [0x06, 0x00, 0x07, 0x01, 0, 0, 0, 0, 0, 0, 0x00, 0x00, 0x00, 0x00] with
    vidInit := true, wBlk := w, hBlk := h, surf := zeroSurfaces w h }

/-- 14 bytes of frame-data header. -/
def header : List Byte := List.replicate 14 0

/-- A literal block: byte k is k. -/
def ramp : List Byte := (List.range 64).map (BitVec.ofNat 8)

/-- A SendVideo in progress at block `b` of a pass, with frame number `fn`. -/
def inPass (s : State) (pass : Pass) (fn : Int) (b lc : Nat) (due : Bool) : State :=
  { s with recon := some { pass := pass, fn := fn, b := b, mc := 0, lc := lc, wordDue := due, skip := .reset, surf := s.surf } }

/-- The block index, literal cursor, pending word and surfaces of the SendVideo in progress. -/
def progress (a : Answer) : Option (Nat × Nat × Bool × Surfaces) :=
  ((after a).bind fun t => t.recon).map fun r => (r.b, r.lc, r.wordDue, r.surf)

/-- Some bytes of a surface of the SendVideo in progress. -/
def shown (a : Answer) (k : Role) (xs : List Nat) : Option (List Byte) :=
  (progress a).map fun p => xs.map (p.2.2.2.get k).byte

/-! ### WellFormed: an ill-formed term for each check -/

/-- R92: payloadLength is 16 bits; R138: a `missized` payload has another size; R102, R105: a short one has fewer bytes than
its fields. -/
theorem test_wf_refuses_payloads :
    (Instr.endStream (List.replicate 65536 0)).wf = false ∧ (Instr.endPacket (List.replicate 65536 0)).wf = false ∧
    (Instr.startAudio (List.replicate 65536 0)).wf = false ∧ (Instr.setMode (List.replicate 65536 0)).wf = false ∧
    (Instr.frameDataV6 (List.replicate 65536 0)).wf = false ∧ (Instr.frameDataV10 (List.replicate 65536 0)).wf = false ∧
    (Instr.skipMap (List.replicate 65536 0)).wf = false ∧ (Instr.decodingMap (List.replicate 65536 0)).wf = false ∧
    (Instr.timer (.missized (List.replicate 65536 0))).wf = false ∧
    (Instr.audioFrame (.fields ⟨0, 0, 0, List.replicate 65530 0⟩)).wf = false ∧
    (Instr.palette (.fields ⟨0, 0, List.replicate 65532 0⟩)).wf = false := by
  simp [Instr.wf, payloadFits, Payload.wfFixed, Payload.wfTail, -List.reduceReplicate]

theorem test_wf_refuses_sizes :
    (Instr.timer (.missized [1, 2, 3, 4, 5, 6])).wf = false ∧
    (Instr.initAudio (.missized [1, 2, 3, 4, 5, 6, 7, 8])).wf = false ∧
    (Instr.initVideo (.missized [1, 2, 3, 4, 5, 6, 7, 8])).wf = false ∧
    (Instr.sendVideo (.missized [1, 2, 3, 4, 5, 6])).wf = false ∧
    (Instr.audioSilent (.missized [1, 2, 3, 4, 5, 6])).wf = false ∧
    (Instr.audioFrame (.missized [1, 2, 3, 4, 5, 6])).wf = false ∧ (Instr.palette (.missized [1, 2, 3, 4])).wf = false := by
  decide

/-- R115: a tag of R93 is not illegal; R110: the zero word is another row. -/
theorem test_wf_refuses_words :
    (Instr.illegal 0 0x0502).wf = false ∧ (Instr.f6Ref1 0).wf = false ∧ (Instr.f6Intra 0).wf = false ∧
    (Instr.f10Nop1 0).wf = false ∧ (Instr.f10Cur 0).wf = false := by decide

/-! ### Decoding: a word written out from 30_encoding.md for every constructor -/

theorem test_decode_framing :
    decodeRecord [0x00, 0x00, 0x00, 0x00] = .ok (.endStream []) ∧
    decodeRecord [0x00, 0x00, 0x01, 0x00, 0x08, 0x00, 0x03, 0x00] = .ok (.endPacket []) ∧
    decodeRecord [0x00, 0x00, 0x02, 0x05] = .ok (.illegal 0 0x0205) := by decide

/-- R96 to R99, R104, R105: the payloads are those of the rules' examples. -/
theorem test_decode_configuration :
    decodeRecord [0x06, 0x00, 0x02, 0x00, 0x35, 0x82, 0x00, 0x00, 0x01, 0x00] = .ok (.timer (.fields ⟨33333, 1⟩)) ∧
    decodeRecord [0x08, 0x00, 0x03, 0x00, 0x00, 0x00, 0x04, 0x00, 0x22, 0x56, 0x34, 0x12] =
      .ok (.initAudio (.fields ⟨0, 4, 22050, 0x1234⟩)) ∧
    decodeRecord [0x00, 0x00, 0x04, 0x00] = .ok (.startAudio []) ∧
    decodeRecord [0x08, 0x00, 0x05, 0x02, 0x28, 0x00, 0x19, 0x01, 0x02, 0x00, 0x00, 0x80] =
      .ok (.initVideo (.fields ⟨40, 0x119, 2, 0x8000⟩)) ∧
    decodeRecord [0x06, 0x00, 0x0A, 0x00, 0x80, 0x02, 0xE0, 0x01, 0x00, 0x00] =
      .ok (.setMode [0x80, 0x02, 0xE0, 0x01, 0x00, 0x00]) ∧
    decodeRecord [0x08, 0x00, 0x0C, 0x00, 0x00, 0x00, 0x01, 0x00, 0x00, 0x15, 0x2A, 0x00] =
      .ok (.palette (.fields ⟨0, 1, [0x00, 0x15, 0x2A, 0x00]⟩)) := by decide

/-- R100 to R103, R106 to R108. -/
theorem test_decode_data :
    decodeRecord [0x02, 0x00, 0x06, 0x00, 0xAB, 0xCD, 0xEF] = .ok (.frameDataV6 [0xAB, 0xCD]) ∧
    decodeRecord [0x06, 0x00, 0x07, 0x01, 0x01, 0x00, 0x02, 0x00, 0x03, 0x00] = .ok (.sendVideo (.fields ⟨1, 2, 3⟩)) ∧
    decodeRecord [0x08, 0x00, 0x08, 0x00, 0x05, 0x00, 0x01, 0x00, 0x02, 0x00, 0x80, 0x7F] =
      .ok (.audioFrame (.fields ⟨5, 1, 2, [0x80, 0x7F]⟩)) ∧
    decodeRecord [0x06, 0x00, 0x09, 0x00, 0x00, 0x00, 0x01, 0x00, 0x10, 0x00] = .ok (.audioSilent (.fields ⟨0, 1, 16⟩)) ∧
    decodeRecord [0x02, 0x00, 0x0E, 0x00, 0x03, 0x00] = .ok (.skipMap [0x03, 0x00]) ∧
    decodeRecord [0x02, 0x00, 0x0F, 0x00, 0xF8, 0xBF] = .ok (.decodingMap [0xF8, 0xBF]) ∧
    decodeRecord [0x00, 0x00, 0x10, 0x00] = .ok (.frameDataV10 []) := by decide

/-- R110: bits 15:0 of 0xC088 are 1 100 0000 1000 1000, so S = 1 and V = 0x4088; 0x3FF8 has S = 0. -/
theorem test_decode_map_words :
    decode .f6Pass1 (.word 0x0000) = .ok .f6Lit ∧ decode .f6Pass1 (.word 0x4000) = .ok (.f6Ref1 0x4000) ∧
    decode .f6Pass2 (.word 0x0000) = .ok .f6Nop2 ∧ decode .f6Pass2 (.word 0xC088) = .ok (.f6Inter 0x4088) ∧
    decode .f6Pass2 (.word 0x7FFF) = .ok (.f6Intra 0x7FFF) ∧ decode .f10Pass1 (.word 0x0000) = .ok .f10Lit ∧
    decode .f10Pass1 (.word 0xBFF8) = .ok (.f10Nop1 0xBFF8) ∧ decode .f10Pass2 (.word 0x0000) = .ok .f10Nop2 ∧
    decode .f10Pass2 (.word 0x3FF8) = .ok (.f10Cur 0x3FF8) ∧ decode .f10Pass2 (.word 0xBFF8) = .ok (.f10Prev 0x3FF8) := by
  decide

/-- R112, R246. -/
theorem test_decode_flags :
    decode .skipFlag (.flag false) = .ok .skipS ∧ decode .skipFlag (.flag true) = .ok .skipN ∧
    decode .showFlag (.flag false) = .ok .skipS ∧ decode .showFlag (.flag true) = .ok .f10Show := by decide

/-- R132: a header or a payload that is not there, and bits of another stream. -/
theorem test_decode_rejects :
    decodeRecord [0x00, 0x00, 0x01] = .error .shortHeader ∧
    decodeRecord [0x02, 0x00, 0x06, 0x00, 0xAB] = .error .shortPayload ∧
    decode .f6Pass1 (.flag true) = .error .wrongStream := by decide

/-- The opcode table's numbering (log entry 9): tag in bits 15..0, payloadLength in bits 31..16. -/
theorem test_table_words :
    decodeTableWord 32 0x00000502 = some (.initVideo (.missized [])) ∧
    decodeTableWord 32 0x00060200 = some (.timer (.fields ⟨0, 0⟩)) ∧
    decodeTableWord 32 0x00000205 = some (.illegal 0 0x0205) ∧ decodeTableWord 16 0xC088 = some (.f6Inter 0x4088) ∧
    decodeTableWord 16 0x0001 = some (.f6Intra 1) ∧ decodeTableWord 8 1 = some .skipN ∧ decodeTableWord 1 0 = some .skipS := by
  decide

/-- A placed word is what the next step runs (log entry 10). -/
theorem test_placed_words :
    (after (step (State.reset.withFetchWord 32 0x00060A00))).map (fun t => (t.cur, t.err)) = some (10, none) ∧
    (after (step (State.reset.withFetchWord 32 0x00000205))).map (fun t => (t.cur, t.err)) = some (0, some .unknownOpcode) ∧
    (progress (step (State.reset.withFetchWord 16 0x4000))).map (fun p => p.1) = some 1 ∧
    (progress (step (State.reset.withFetchWord 8 1))).map (fun p => (p.1, p.2.2.1)) = some (0, true) := by decide

/-! ### Single steps: the results are those of the rules' examples and of 95_test_vectors.md -/

/-- R134. -/
theorem test_end : (after (step (fetching [0, 0, 0, 0]))).map (fun t => (t.done, t.cur)) = some (true, 34) := by decide

/-- R135: the packet header after the record is consumed too. -/
theorem test_endPacket : (after (step (fetching [0, 0, 1, 0, 0x62, 0x01, 0x03, 0x00]))).map
    (fun t => (t.pktLen, t.pktKind, t.cur)) = some (0x0162, 3, 38) := by decide

/-- R150. -/
theorem test_timer : (after (step (fetching [6, 0, 2, 0, 0x35, 0x82, 0, 0, 1, 0]))).map
    (fun t => (t.tmrSet, t.tmrRate, t.tmrSubdiv, t.cur)) = some (true, 33333, 1, 40) := by decide

/-- R151, S4. -/
theorem test_initAudio : (after (step (fetching [8, 0, 3, 0, 0, 0, 0, 0, 0x22, 0x56, 0, 0]))).map
    (fun t => (t.audInit, t.audRate, t.cur)) = some (true, 22050, 42) := by decide

/-- R151: `flags = 0x0004` is accepted, bit 1 is not. -/
theorem test_initAudio_flags :
    (after (exec (.initAudio (.fields ⟨0, 4, 0, 0⟩)) State.reset)).map (fun t => t.err) = some none ∧
    (after (exec (.initAudio (.fields ⟨0, 2, 0, 0⟩)) State.reset)).map (fun t => t.err) = some (some .badConfiguration) := by
  decide

/-- R152. -/
theorem test_startAudio : (after (step (fetching [0, 0, 4, 0]))).map (fun t => (t.cur, t.err)) = some (34, none) := by decide

/-- R153. -/
theorem test_initVideo : (after (step (fetching [8, 0, 5, 2, 1, 0, 1, 0, 0, 0, 0, 0]))).map
    (fun t => (t.vidInit, t.width, t.height, t.surf.r1.len)) = some (true, 8, 8, 64) := by decide

/-- R154. -/
theorem test_setMode : (after (step (fetching [6, 0, 0x0A, 0, 0x80, 2, 0xE0, 1, 0, 0]))).map (fun t => t.cur) = some 40 := by
  decide

/-- R155, S1. -/
theorem test_palette : (after (step (fetching [8, 0, 0x0C, 0, 0, 0, 1, 0, 0x00, 0x15, 0x2A, 0]))).map
    (fun t => (t.pal.take 3, t.palDirty, t.cur)) = some ([0x00, 0x55, 0xAA], true, 42) := by decide +kernel

/-- R113: a source byte with bits 7:6 set. -/
theorem test_palette_expansion : expandChannel 0x3F = 0xFF ∧ expandChannel 0xC1 = 0xC5 := by decide

/-- R170, R173. -/
theorem test_frameData :
    (after (step (fetching [2, 0, 6, 0, 0xAB, 0xCD]))).map (fun t => (t.fd, t.fmt, t.cur)) = some ([0xAB, 0xCD], .v6, 36) ∧
    (after (step (fetching [1, 0, 0x10, 0, 0xAB]))).map (fun t => (t.fd, t.fmt, t.cur)) = some ([0xAB], .v10, 35) := by decide +kernel

/-- R171, R172. -/
theorem test_maps :
    (after (step (fetching [2, 0, 0x0E, 0, 3, 0]))).map (fun t => (t.sm, t.dm, t.cur)) = some ([3, 0], [], 36) ∧
    (after (step (fetching [2, 0, 0x0F, 0, 0xF8, 0xBF]))).map (fun t => (t.sm, t.dm)) = some ([], [0xF8, 0xBF]) := by decide

/-- R180, R181: the queued buffers; before InitAudio both fault. -/
theorem test_audio :
    (after (exec (.audioFrame (.fields ⟨0, 1, 2, [0x80, 0x7F]⟩)) { State.reset with audInit := true })).map
      (fun t => (t.audOut, t.cur)) = some ([[0x80, 0x7F]], 12) ∧
    (after (exec (.audioSilent (.fields ⟨0, 1, 3⟩)) { State.reset with audInit := true, audOut := [[1]] })).map
      (fun t => t.audOut) = some [[1], [0x80, 0x80, 0x80]] ∧
    (after (exec (.audioSilent (.fields ⟨0, 1, 3⟩)) State.reset)).map (fun t => t.err) = some (some .badConfiguration) := by
  decide

/-- S1: pixel (x, y) of the first frame is 8y + x. -/
theorem test_sendVideo_format6 :
    (after (step { grid 1 1 with fd := header ++ [0, 0] ++ ramp, fmt := .v6 })).map
      (fun t => (t.frameNo, t.cur, [0, 9, 63].map t.surf.f.byte)) = some (0, 40, [0, 9, 63]) := by decide

/-- P3, first frame: both blocks literal, shown and swapped. -/
theorem test_sendVideo_format10 :
    (after (step { grid 2 1 with
        fmt := .v10, sm := [3, 0], dm := [0, 0, 0, 0],
        fd := header ++ List.replicate 64 0x11 ++ List.replicate 64 0x22 })).map
      (fun t => (t.frameNo, [7, 8, 127].map t.surf.f.byte, t.surf.r1.byte 8, t.surf.r0.byte 8)) =
      some (0, [0x11, 0x22, 0x22], 0x22, 0) := by decide +kernel

/-- R225. -/
theorem test_f6Lit : shown (exec .f6Lit (inPass { grid 1 1 with fd := ramp } .f6Pass1 0 0 0 false)) .f [0, 9, 63] =
    some [0, 9, 63] := by decide

/-- R226: gated off up to frame number 1. -/
theorem test_f6Ref1 :
    shown (exec (.f6Ref1 0x4000) (inPass { grid 1 1 with surf := ⟨.zero 64, .zero 64, surface ramp⟩ } .f6Pass1 2 0 0 false))
      .f [9, 63] = some [9, 63] ∧
    shown (exec (.f6Ref1 0x4000) (inPass { grid 1 1 with surf := ⟨.zero 64, .zero 64, surface ramp⟩ } .f6Pass1 1 0 0 false))
      .f [9, 63] = some [0, 0] := by decide

/-- R228. -/
theorem test_f6Nop2 : (progress (exec .f6Nop2 (inPass (grid 1 1) .f6Pass2 0 0 0 false))).map (fun p => p.1) = some 1 := by decide

/-- P4, second frame: 0xC088 on a surface 16 wide takes block 3 of R0 to block 0. -/
theorem test_f6Inter :
    shown (exec (.f6Inter 0x4088) (inPass { grid 2 2 with
        surf := ⟨.zero 256, ⟨256, [(136, 1), (143, 2), (153, 3), (255, 4)]⟩, .zero 256⟩ } .f6Pass2 1 0 0 false))
      .f [0, 7, 17, 119, 8] = some [1, 2, 3, 4, 0] := by decide +kernel

/-- The worked example of R194: W = 8, H = 16, scanline y holds y, block 1, offset −32. -/
theorem test_f6Intra_overlap :
    shown (exec (.f6Intra 0x3FE0) (inPass { grid 1 2 with
        surf := ⟨⟨128, (List.range 15).map fun y => (8 * y + 8, BitVec.ofNat 8 (y + 1))⟩, .zero 128, .zero 128⟩ } .f6Pass2 0 1 0 false))
      .f [64, 72, 80, 88, 96, 104, 112, 120] = some [4, 5, 6, 7, 4, 5, 6, 7] := by decide +kernel

/-- The second example of R194: W = 16, H = 8, pixel = x, block 1, offset −4. -/
theorem test_f6Intra_row :
    shown (exec (.f6Intra 0x3FFC) (inPass { grid 2 1 with
        surf := ⟨⟨128, (List.range 15).map fun x => (x + 1, BitVec.ofNat 8 (x + 1))⟩, .zero 128, .zero 128⟩ } .f6Pass2 0 1 0 false))
      .f [7, 8, 11, 12, 15] = some [7, 4, 7, 8, 11] := by decide +kernel

/-- R242: the literal goes to R0, not to F. -/
theorem test_f10Lit :
    (shown (exec .f10Lit (inPass { grid 1 1 with fd := ramp } .f10Pass1 0 0 0 true)) .r0 [9, 63],
      shown (exec .f10Lit (inPass { grid 1 1 with fd := ramp } .f10Pass1 0 0 0 true)) .f [9, 63]) =
    (some [9, 63], some [0, 0]) := by decide

/-- R241, R243. -/
theorem test_f10Nop :
    (progress (exec (.f10Nop1 0xBFF8) (inPass (grid 1 1) .f10Pass1 0 0 14 true))).map (fun p => (p.1, p.2.1)) = some (1, 14) ∧
    (progress (exec .f10Nop2 (inPass (grid 1 1) .f10Pass2 0 0 14 true))).map (fun p => (p.1, p.2.2.1)) = some (1, false) := by
  decide

/-- The example of R244: word 0x3FF8, R0 block 1 := R0 block 0. -/
theorem test_f10Cur :
    shown (exec (.f10Cur 0x3FF8) (inPass { grid 2 1 with
        surf := ⟨.zero 128, ⟨128, [(1, 1), (7, 7), (119, 9)]⟩, .zero 128⟩ } .f10Pass2 0 1 0 true))
      .r0 [8, 15, 127] = some [0, 7, 9] := by decide +kernel

/-- P3, second frame: word 0xBFF8, R0 block 1 := R1 block 0, at any frame number. -/
theorem test_f10Prev :
    shown (exec (.f10Prev 0x3FF8) (inPass { grid 2 1 with
        surf := ⟨.zero 128, .zero 128, ⟨128, [(0, 0x11), (7, 0x12), (119, 0x13)]⟩⟩ } .f10Pass2 0 1 0 true))
      .r0 [7, 8, 15, 127] = some [0, 0x11, 0x12, 0x13] := by decide +kernel

/-- R212: SM = 02 00 skips block 0 and not block 1; a fault when the word is missing. -/
theorem test_skip_flags :
    (progress (exec .skipS (inPass { grid 2 1 with sm := [2, 0] } .f10Pass1 0 0 14 false))).map (fun p => (p.1, p.2.2.1)) =
      some (1, false) ∧
    (progress (exec .skipN (inPass { grid 2 1 with sm := [2, 0] } .f10Pass2 0 1 14 false))).map (fun p => (p.1, p.2.2.1)) =
      some (1, true) ∧
    (after (exec .skipN (inPass { grid 2 1 with sm := [2] } .f10Pass2 0 1 14 false))).map (fun t => (t.err, t.recon)) =
      some (some .mapExhausted, none) := by decide

/-- R246. -/
theorem test_f10Show :
    shown (exec .f10Show (inPass { grid 1 1 with sm := [1, 0], surf := ⟨.zero 64, surface ramp, .zero 64⟩ } .f10Pass3 0 0 0 false))
      .f [9, 63] = some [9, 63] := by decide

/-- R215: the examples SM = 05 00, 00 80 and 34 12. -/
theorem test_skip_stream :
    (List.range 16).filter (fun j => !skippedAt [0x05, 0x00] j) = [0, 2] ∧
    (List.range 16).filter (fun j => !skippedAt [0x00, 0x80] j) = [15] ∧
    (List.range 16).filter (fun j => !skippedAt [0x34, 0x12] j) = [2, 4, 5, 9, 12] := by decide

/-- The header of R90, then one packet: `load` stops at a packet of kind 3, and after an End. -/
theorem test_load :
    (load (headerBytes ++ [0, 0, 3, 0])).2 = .ok ∧ (load (headerBytes ++ [0, 0, 3, 0])).1.cur = 29 ∧
    (load (headerBytes ++ [4, 0, 0, 0] ++ [0, 0, 0, 0])).2 = .ok ∧
    (load (headerBytes ++ [4, 0, 0, 0] ++ [0, 0, 0, 0])).1.done = true := by decide

/-! ### States that meet the invariant -/

/-- A loaded engine with a w × h grid of zeros and one frame's buffers, about to execute a SendVideo and then an End. -/
def frame (w h : Word16) (fmt : Format) (fd sm dm : List Byte) (fn : Int) : State :=
  { grid w h with fmt := fmt, fd := fd, sm := sm, dm := dm, frameNo := fn }

theorem grid_fit (w h : Word16) : (zeroSurfaces w h).fit (8 * w.toNat * (8 * h.toNat)) := by
  rw [show 8 * w.toNat * (8 * h.toNat) = 64 * w.toNat * h.toNat by ring]
  exact zeroSurfaces_fit w h

theorem frame_inv {w h : Word16} {fmt : Format} {fd sm dm : List Byte} {fn : Int} (hw : 1 ≤ w.toNat ∧ 1 ≤ h.toNat)
    (hb : fd.length ≤ 65535 ∧ sm.length ≤ 65535 ∧ dm.length ≤ 65535) (hf : fmt = .none → fd = []) (hn : -1 ≤ fn) :
    (frame w h fmt fd sm dm fn).Inv where
  vidOn _ := ⟨hw.1, hw.2, rfl⟩
  vidOff h := by cases h
  fit := grid_fit w h
  timer h := by cases h
  audOn h := by cases h
  audOff _ := rfl
  pal := by simp [frame, grid, fetching, State.reset, Config.palBytes]
  buffers := hb
  fmt := hf
  frameNo := hn
  cursor _ := by simp [frame, grid, fetching, State.source]
  recon r h := by cases h

/-- The same grid with a Timer and an InitAudio executed. -/
def configured : State := { frame 1 1 .none [] [] [] (-1) with
  tmrSet := true, tmrRate := 33333, tmrSubdiv := 1, audInit := true, audFlags := 4, audRate := 22050 }

theorem configured_inv : configured.Inv where
  vidOn _ := ⟨by decide, by decide, rfl⟩
  vidOff h := by cases h
  fit := grid_fit 1 1
  timer _ := by decide
  audOn _ := by decide
  audOff h := by cases h
  pal := by simp [configured, frame, grid, fetching, State.reset, Config.palBytes]
  buffers := by decide
  fmt _ := rfl
  frameNo := by decide
  cursor _ := by decide
  recon r h := by cases h

/-- An engine that no `load` has touched since reset, with a record in place. -/
theorem fetching_inv {bytes : List Byte} : (fetching bytes).Inv where
  vidOn h := by cases h
  vidOff _ := ⟨rfl, rfl⟩
  fit k := by cases k <;> exact ⟨Memory.zero_wf _, rfl⟩
  timer h := by cases h
  audOn h := by cases h
  audOff _ := rfl
  pal := by simp [fetching, State.reset, Config.palBytes]
  buffers := by simp [fetching, State.reset]
  fmt _ := rfl
  frameNo := by simp [fetching, State.reset]
  cursor _ := by simp [fetching, State.source]
  recon r h := by cases h

/-- A 1 × 1 format-6 frame of one literal, a 1 × 1 format-6 frame of one word, and a 1 × 1 format-10 frame. -/
def literalFrame (fn : Int) : State := frame 1 1 .v6 (header ++ [0, 0] ++ ramp) [] [] fn
def wordFrame (lo hi : Byte) (fn : Int) : State := frame 1 1 .v6 (header ++ [lo, hi]) [] [] fn
def format10Frame (sm dm : List Byte) : State := frame 1 1 .v10 (header ++ ramp) sm dm (-1)

theorem literalFrame_inv {fn : Int} (h : -1 ≤ fn) : (literalFrame fn).Inv :=
  frame_inv (by decide) (by decide) (by intro e; cases e) h

theorem wordFrame_inv {lo hi : Byte} {fn : Int} (h : -1 ≤ fn) : (wordFrame lo hi fn).Inv :=
  frame_inv (by decide) (by simp [header]) (by intro e; cases e) h

theorem format10Frame_inv {sm dm : List Byte} (hs : sm.length ≤ 65535) (hd : dm.length ≤ 65535) :
    (format10Frame sm dm).Inv :=
  frame_inv (by decide) ⟨by decide, hs, hd⟩ (by intro e; cases e) (by decide)

/-- A SendVideo in progress at block 0 of a 1 × 1 grid. -/
def working (s : State) (pass : Pass) : State := inPass s pass (s.frameNo + 1) 0 0 false

theorem working_inv {s : State} (pass : Pass) (h : s.Inv) (hv : s.vidInit = true) (hl : s.loaded = true)
    (hr : s.cur + 10 ≤ s.source.length) : (working s pass).Inv where
  vidOn := h.vidOn
  vidOff := h.vidOff
  fit := h.fit
  timer := h.timer
  audOn := h.audOn
  audOff := h.audOff
  pal := h.pal
  buffers := h.buffers
  fmt := h.fmt
  frameNo := h.frameNo
  cursor := h.cursor
  recon r e := by
    cases e
    exact ⟨hv, hl, h.fit, rfl, Nat.zero_le _, Nat.zero_le 16, hr⟩

/-! ### Witnesses: for every statement with hypotheses, a state and operands that meet them together -/

theorem witness_DecodeOfEncode :
    (Instr.timer (.fields ⟨0xFFFFFFFF, 0xFFFF⟩)).wf = true ∧ (Instr.timer (.missized [1])).wf = true ∧
    (Instr.palette (.missized [1, 2, 3])).wf = true ∧ (Instr.illegal 0xFFFF 0x0205).wf = true ∧
    (Instr.f6Intra 1).wf = true ∧ (Instr.f6Inter 0).wf = true ∧ Instr.skipN.wf = true := by decide

theorem witness_EncodeOfDecodedRecord : decodeRecord [0x01, 0x00, 0x02, 0x00, 0x35, 0x82] = .ok (.timer (.missized [0x35])) := by
  decide

theorem witness_EveryMapWordAndFlagIsLegal :
    Context.f10Pass2 ∈ [Context.f6Pass1, .f6Pass2, .f10Pass1, .f10Pass2] ∧ Context.showFlag ∈ [Context.skipFlag, .showFlag] := by
  decide

theorem witness_StepRunsDecodedRecord :
    let s := fetching [0, 0, 4, 0]
    s.loaded = true ∧ s.done = false ∧ s.err = none ∧ s.recon = none ∧
      decodeRecord (s.source.drop s.cur) = .ok (.startAudio []) := by decide

theorem witness_StepRunsBlockInstruction :
    let s := working (literalFrame (-1)) .f6Pass1
    ∃ r, s.loaded = true ∧ s.done = false ∧ s.err = none ∧ s.recon = some r ∧ r.b < s.blocks ∧
      fetchBlock s r = .ok .f6Lit :=
  ⟨_, rfl, rfl, rfl, rfl, by decide, by decide⟩

/-- One payload byte is missing. -/
theorem witness_StepReportsMissingPayload :
    let s := fetching [2, 0, 6, 0, 0xAB]
    s.loaded = true ∧ s.done = false ∧ s.err = none ∧ s.recon = none ∧ s.cur + 4 ≤ s.source.length ∧
      (Opcode.ofTag (u16BE s.source (s.cur + 2))).isSome = true ∧
      s.source.length + 1 = s.cur + 4 + (u16LE s.source s.cur).toNat := by decide

/-- Three header bytes; and a whole header with the tag next to InitVideo's, its payload missing. -/
theorem witness_StepReportsIllegalTag :
    (let s := fetching [0, 0, 5]
     s.loaded = true ∧ s.done = false ∧ s.err = none ∧ s.recon = none ∧ s.source.length + 1 = s.cur + 4) ∧
    (let s := fetching [9, 0, 5, 1]
     s.loaded = true ∧ s.done = false ∧ s.err = none ∧ s.recon = none ∧ s.cur + 4 = s.source.length ∧
       u16BE s.source (s.cur + 2) ∉ ([0x0000, 0x0100, 0x0200, 0x0300, 0x0400, 0x0502, 0x0600, 0x0701, 0x0800, 0x0900,
        0x0A00, 0x0C00, 0x0E00, 0x0F00, 0x1000] : List Word16)) := by decide

theorem witness_DisabledStepStops :
    State.reset.loaded = false ∧ { State.reset with done := true }.done = true ∧
    { State.reset with err := some ErrCode.truncated }.err ≠ none := by decide

theorem witness_StepMovesPastItsRecord :
    (fetching [0, 0, 1, 0, 0, 0, 3, 0]).recon = none ∧
    (after (step (fetching [0, 0, 1, 0, 0, 0, 3, 0]))).map (fun t => t.err) = some none ∧
    (after (step (fetching [6, 0, 0x0A, 0, 0, 0, 0, 0, 0, 0]))).map (fun t => t.err) = some none := by decide

theorem witness_FaultingStepChangesOnlyErr :
    (fetching [1, 0, 0, 0, 0]).recon = none ∧
    (after (step (fetching [1, 0, 0, 0, 0]))).map (fun t => t.err) = some (some .badConfiguration) := by decide

theorem witness_StepLeavesNoTransients :
    (literalFrame (-1)).recon = none ∧ (after (step (literalFrame (-1)))).map (fun t => t.err) = some none := by decide +kernel

theorem witness_OnlyEndSetsDone :
    (fetching [0, 0, 0, 0]).recon = none ∧ (after (step (fetching [0, 0, 0, 0]))).map (fun t => t.err) = some none := by decide

theorem witness_StepKeepsInvariant :
    (literalFrame (-1)).Inv ∧ (after (step (literalFrame (-1)))).isSome = true ∧
    (working (literalFrame (-1)) .f6Pass1).Inv ∧ (after (step (working (literalFrame (-1)) .f6Pass1))).isSome = true :=
  ⟨literalFrame_inv (by decide), by decide +kernel,
    working_inv _ (literalFrame_inv (by decide)) rfl rfl (by decide), by decide +kernel⟩

theorem witness_EnabledStepAnswers :
    let s := format10Frame [1, 0] [0, 0]
    s.Inv ∧ s.loaded = true ∧ s.done = false ∧ s.err = none :=
  ⟨format10Frame_inv (by decide) (by decide), rfl, rfl, rfl⟩

/-- The header just fits, and one byte of it is missing. -/
theorem witness_EndPacketCompletes :
    (fetching [0, 0, 1, 0, 0, 0, 3, 0]).cur + 8 = (fetching [0, 0, 1, 0, 0, 0, 3, 0]).source.length ∧
    (fetching [0, 0, 1, 0, 0, 0, 3]).source.length + 1 = (fetching [0, 0, 1, 0, 0, 0, 3]).cur + 8 ∧
    (fetching [0, 0, 1, 0, 0, 0, 3]).recon = none := by decide

theorem witness_IllegalRaisesUnknownOpcode : State.reset.recon = none := rfl

theorem witness_WrongFixedSizeRaises :
    State.reset.recon = none ∧
    (Opcode.setMode, 6) ∈ [(Opcode.endStream, 0), (.endPacket, 0), (.timer, 6), (.initAudio, 8), (.startAudio, 0),
      (.initVideo, 8), (.sendVideo, 6), (.audioSilent, 6), (.setMode, 6)] ∧ ([1, 2, 3, 4, 5] : List Byte).length ≠ 6 := by
  decide

theorem witness_TimerCompletes :
    State.reset.tmrSet = false ∧ (TimerFields.mk 1 1).rate.toNat * (TimerFields.mk 1 1).subdiv.toNat ≠ 0 := by decide

theorem witness_InitAudioCompletes :
    State.reset.audInit = false ∧ (InitAudioFields.mk 0 0xFFFC 0 0).flags.toNat % 4 = 0 := by decide

theorem witness_InitVideoCompletes :
    State.reset.vidInit = false ∧ (InitVideoFields.mk 1 65535 9 0).wBlocks ≠ 0 ∧
    (InitVideoFields.mk 1 65535 9 0).hBlocks ≠ 0 ∧ (InitVideoFields.mk 1 65535 9 0).trueColor = 0 := by decide

theorem witness_NoOperationRecordsComplete : ([0x80, 0x02, 0xE0, 0x01, 0x00, 0x00] : List Byte).length = 6 := by decide

/-- The last slot of the palette. -/
theorem witness_PaletteCompletes :
    State.reset.pal.length = 768 ∧
    3 * (PaletteFields.mk 255 1 [1, 2, 3, 0]).palCount.toNat ≤ (PaletteFields.mk 255 1 [1, 2, 3, 0]).body.length ∧
    (PaletteFields.mk 255 1 [1, 2, 3, 0]).palStart.toNat + (PaletteFields.mk 255 1 [1, 2, 3, 0]).palCount.toNat = 256 :=
  ⟨by simp [State.reset, Config.palBytes], by decide, by decide⟩

/-- Each check at its boundary: a second Timer, a zero product; a second InitAudio, bit 1 of the flags; a second InitVideo, each
side zero, true colour; two of three channels, slot 256; three of four bytes. -/
theorem witness_ConfigurationChecksRaise :
    State.reset.recon = none ∧ configured.tmrSet = true ∧ (TimerFields.mk 0 1).rate.toNat * (TimerFields.mk 0 1).subdiv.toNat = 0 ∧
    configured.audInit = true ∧ (InitAudioFields.mk 0 2 0 0).flags.toNat % 4 ≠ 0 ∧
    configured.vidInit = true ∧ (InitVideoFields.mk 0 1 0 0).wBlocks = 0 ∧ (InitVideoFields.mk 1 0 0 0).hBlocks = 0 ∧
    (InitVideoFields.mk 1 1 0 1).trueColor ≠ 0 ∧
    (PaletteFields.mk 0 1 [1, 2]).body.length < 3 * (PaletteFields.mk 0 1 [1, 2]).palCount.toNat ∧
    256 < (PaletteFields.mk 256 1 [1, 2, 3]).palStart.toNat + (PaletteFields.mk 256 1 [1, 2, 3]).palCount.toNat ∧
    ([0, 0, 0] : List Byte).length < 4 := by decide

theorem witness_AudioOpcodesComplete :
    configured.audInit = true ∧ (AudioFrameFields.mk 0 1 0 []).pcm.length = (AudioFrameFields.mk 0 1 0 []).len.toNat ∧
    (AudioFrameFields.mk 0 1 2 [1, 2]).pcm.length = (AudioFrameFields.mk 0 1 2 [1, 2]).len.toNat := by decide

theorem witness_AudioAndSendVideoChecksRaise :
    State.reset.recon = none ∧ State.reset.audInit = false ∧ State.reset.vidInit = false ∧ State.reset.fmt = .none ∧
    (AudioFrameFields.mk 0 1 3 [1, 2]).pcm.length ≠ (AudioFrameFields.mk 0 1 3 [1, 2]).len.toNat ∧
    ([0, 0, 0, 0, 0] : List Byte).length < 6 := by decide

/-! The frames: a literal one byte short; a literal that is there; a word whose source is out of bounds; an INTER word at frame
number 0, which is not checked. -/

theorem short6_not_supplied : ¬(wordFrame 0 0 (-1)).supplied6 := by unfold State.supplied6; decide
theorem literal6_supplied : (literalFrame (-1)).supplied6 := by unfold State.supplied6; decide
theorem word6_supplied : (wordFrame 0x01 0x40 0).supplied6 := by unfold State.supplied6; decide

theorem one_block {w h : Word16} {fmt : Format} {fd sm dm : List Byte} {fn : Int} (hw : w = 1 ∧ h = 1) {b : Nat}
    (hb : b < (frame w h fmt fd sm dm fn).blocks) : b = 0 := by
  obtain ⟨rfl, rfl⟩ := hw
  have : (frame 1 1 fmt fd sm dm fn).blocks = 1 := rfl
  omega

theorem literal6_bounded : (literalFrame (-1)).boundedFrame6 0 := by
  intro b hb h
  obtain rfl := one_block ⟨rfl, rfl⟩ hb
  exact absurd (by decide) h

theorem inter6_bounded : (wordFrame 0x00 0x80 (-1)).boundedFrame6 0 := by
  intro b hb _ h
  obtain rfl := one_block ⟨rfl, rfl⟩ hb
  exact absurd (h (by decide)) (by decide)

theorem word6_not_bounded : ¬(wordFrame 0x01 0x40 0).boundedFrame6 1 := by
  intro h
  exact absurd (h 0 (by decide) (by decide) (by decide)) (by decide)

theorem witness_Format6FrameOutcome :
    ((wordFrame 0 0 (-1)).Inv ∧ (wordFrame 0 0 (-1)).recon = none ∧ (wordFrame 0 0 (-1)).vidInit = true ∧
      (wordFrame 0 0 (-1)).fmt = .v6 ∧ ¬(wordFrame 0 0 (-1)).supplied6) ∧
    ((wordFrame 0x01 0x40 0).Inv ∧ (wordFrame 0x01 0x40 0).supplied6 ∧
      ¬(wordFrame 0x01 0x40 0).boundedFrame6 ((wordFrame 0x01 0x40 0).frameNo + 1)) ∧
    ((literalFrame (-1)).Inv ∧ (literalFrame (-1)).supplied6 ∧
      (literalFrame (-1)).boundedFrame6 ((literalFrame (-1)).frameNo + 1)) ∧
    (wordFrame 0x00 0x80 (-1)).boundedFrame6 ((wordFrame 0x00 0x80 (-1)).frameNo + 1) :=
  ⟨⟨wordFrame_inv (by decide), rfl, rfl, rfl, short6_not_supplied⟩,
    ⟨wordFrame_inv (by decide), word6_supplied, word6_not_bounded⟩,
    ⟨literalFrame_inv (by decide), literal6_supplied, literal6_bounded⟩, inter6_bounded⟩

theorem literal10_bounded : (format10Frame [1, 0] [0, 0]).boundedFrame10 := by
  intro b hb _ h
  obtain rfl := one_block ⟨rfl, rfl⟩ hb
  exact absurd (by decide) h

theorem word10_not_bounded : ¬(format10Frame [1, 0] [0x01, 0xC0]).boundedFrame10 := by
  intro h
  exact absurd (h 0 (by decide) (by decide) (by decide)) (by decide)

/-- Half a skip word; a PREV word out of bounds; a literal. -/
theorem witness_Format10FrameOutcome :
    ((format10Frame [1] [0, 0]).Inv ∧ (format10Frame [1] [0, 0]).recon = none ∧ (format10Frame [1] [0, 0]).vidInit = true ∧
      (format10Frame [1] [0, 0]).fmt = .v10 ∧ ¬(format10Frame [1] [0, 0]).supplied10) ∧
    ((format10Frame [1, 0] [0x01, 0xC0]).Inv ∧ (format10Frame [1, 0] [0x01, 0xC0]).supplied10 ∧
      ¬(format10Frame [1, 0] [0x01, 0xC0]).boundedFrame10) ∧
    ((format10Frame [1, 0] [0, 0]).Inv ∧ (format10Frame [1, 0] [0, 0]).supplied10 ∧
      (format10Frame [1, 0] [0, 0]).boundedFrame10) :=
  ⟨⟨format10Frame_inv (by decide) (by decide), rfl, rfl, rfl, by unfold State.supplied10; decide⟩,
    ⟨format10Frame_inv (by decide) (by decide), by unfold State.supplied10; decide, word10_not_bounded⟩,
    ⟨format10Frame_inv (by decide) (by decide), by unfold State.supplied10; decide, literal10_bounded⟩⟩

theorem witness_Format6LiteralFrameShowsFrameData :
    let s := literalFrame 7
    s.Inv ∧ s.vidInit = true ∧ s.fmt = .v6 ∧ (∀ b, b < s.blocks → s.word6 b = 0) ∧ 14 + 66 * s.blocks = s.fd.length :=
  ⟨literalFrame_inv (by decide), rfl, rfl, fun b hb => by obtain rfl := one_block ⟨rfl, rfl⟩ hb; decide, by decide⟩

/-- At the frame numbers 0, 1 and 2. -/
theorem witness_Format6RotatesReferences :
    ((literalFrame (-1)).Inv ∧ (literalFrame 0).Inv ∧ (literalFrame 1).Inv) ∧
    ([-1, 0, 1].map fun fn => (after (exec (.sendVideo (.fields ⟨0, 0, 0⟩)) (literalFrame fn))).map fun t => t.frameNo) =
      [some 0, some 1, some 2] :=
  ⟨⟨literalFrame_inv (by decide), literalFrame_inv (by decide), literalFrame_inv (by decide)⟩, by decide +kernel⟩

/-- Frame number 1, with other references. -/
theorem witness_EarlyFormat6FramesIgnoreReferences :
    let s := wordFrame 0x00 0xC0 0
    let x : Surfaces := ⟨.zero 64, ⟨64, [(0, 1)]⟩, ⟨64, [(63, 2)]⟩⟩
    s.Inv ∧ x.fit s.pixels ∧ x.f = s.surf.f ∧ s.fmt = .v6 ∧ s.frameNo ≤ 0 := by
  refine ⟨wordFrame_inv (by decide), fun k => ?_, rfl, rfl, by decide⟩
  cases k <;> exact ⟨by decide, rfl⟩

theorem witness_Format10RotatesReferencesAndKeepsSkippedBlocks :
    (format10Frame [0, 0] []).Inv ∧ (format10Frame [0, 0] []).fmt = .v10 ∧ (format10Frame [0, 0] []).vidInit = true ∧
    (after (exec (.sendVideo (.fields ⟨0, 0, 0⟩)) (format10Frame [0, 0] []))).map (fun t => t.frameNo) = some 0 ∧
    0 < (format10Frame [0, 0] []).blocks ∧ skippedAt (format10Frame [0, 0] []).sm 0 = true ∧ inBlock 8 0 63 :=
  ⟨format10Frame_inv (by decide) (by decide), rfl, rfl, by decide +kernel, by decide, by decide, 7, by decide⟩

theorem witness_Format10ShowsItsWorkspace :
    (format10Frame [1, 0] [0, 0]).Inv ∧ (format10Frame [1, 0] [0, 0]).fmt = .v10 ∧
    (format10Frame [1, 0] [0, 0]).vidInit = true ∧
    (after (exec (.sendVideo (.fields ⟨0, 0, 0⟩)) (format10Frame [1, 0] [0, 0]))).map (fun t => t.frameNo) = some 0 ∧
    0 < (format10Frame [1, 0] [0, 0]).blocks ∧ skippedAt (format10Frame [1, 0] [0, 0]).sm 0 = false ∧ inBlock 8 0 0 :=
  ⟨format10Frame_inv (by decide) (by decide), rfl, rfl, by decide +kernel, by decide, by decide, 0, by decide⟩

theorem witness_Format10AllSkippedFrameOnlySwaps :
    let s := format10Frame [0xFE, 0xFF] []
    s.Inv ∧ s.recon = none ∧ s.vidInit = true ∧ s.fmt = .v10 ∧ s.blocks ≤ 16 * (s.sm.length / 2) ∧
      ∀ b, b < s.blocks → skippedAt s.sm b = true :=
  ⟨format10Frame_inv (by decide) (by decide), rfl, rfl, rfl, by decide,
    fun b hb => by obtain rfl := one_block ⟨rfl, rfl⟩ hb; decide⟩

theorem witness_SendVideoIsItsBlockInstructions :
    (let s := literalFrame 3
     s.loaded = true ∧ s.done = false ∧ s.err = none ∧ s.recon = none ∧ s.vidInit = true ∧ s.fmt = .v6 ∧
       (openFormat6 s).toOption.isSome = true) ∧
    (let s := format10Frame [1, 0] [0, 0]
     s.loaded = true ∧ s.done = false ∧ s.err = none ∧ s.recon = none ∧ s.vidInit = true ∧ s.fmt = .v10) := by decide +kernel

/-! The block operations, at the only block of a 1 × 1 grid. -/

/-- A SendVideo in progress at block 0 of a 1 × 1 grid that FD supplies with exactly one literal. -/
def atBlock (pass : Pass) (fn : Int) (due : Bool) : State :=
  inPass (frame 1 1 .v6 ramp [1, 0] [] (fn - 1)) pass fn 0 0 due

/-- The SendVideo in progress of `atBlock`. -/
def blockOf (pass : Pass) (fn : Int) (due : Bool) : Recon :=
  { pass := pass, fn := fn, b := 0, mc := 0, lc := 0, wordDue := due, skip := .reset, surf := zeroSurfaces 1 1 }

theorem atBlock_base (pass : Pass) (fn : Int) (due : Bool) :
    (atBlock pass fn due).recon = some (blockOf pass fn due) ∧ (blockOf pass fn due).surf.fit (atBlock pass fn due).pixels ∧
    (blockOf pass fn due).b + 1 = (atBlock pass fn due).blocks :=
  ⟨rfl, grid_fit 1 1, rfl⟩

theorem witness_LiteralOperationsComplete :
    (atBlock .f6Pass1 0 false).recon = some (blockOf .f6Pass1 0 false) ∧
    (blockOf .f6Pass1 0 false).surf.fit (atBlock .f6Pass1 0 false).pixels ∧
    (blockOf .f6Pass1 0 false).b < (atBlock .f6Pass1 0 false).blocks ∧
    (blockOf .f6Pass1 0 false).lc + 64 = (atBlock .f6Pass1 0 false).fd.length ∧
    (blockOf .f10Pass1 0 true).pass = .f10Pass1 ∧ (blockOf .f10Pass1 0 true).wordDue = true ∧
    (blockOf .f10Pass1 0 true).surf.fit (atBlock .f10Pass1 0 true).pixels :=
  ⟨rfl, grid_fit 1 1, by decide, by decide, rfl, rfl, grid_fit 1 1⟩

/-- The first frame number with a previous frame, and offset 0, the only one in bounds. -/
theorem witness_ReferenceCopiesComplete :
    let s := atBlock .f6Pass2 1 false
    let r := blockOf .f6Pass2 1 false
    s.recon = some r ∧ r.surf.fit s.pixels ∧ r.b < s.blocks ∧
      s.inBounds (s.anchor r.b + (((0x4000 : BitVec 15).toNat : Int) - 0x4000)) = true ∧ r.pass = .f6Pass2 ∧ 0 < r.fn ∧
      (blockOf .f10Pass2 0 true).pass = .f10Pass2 ∧ (blockOf .f10Pass2 0 true).wordDue = true :=
  ⟨rfl, grid_fit 1 1, by decide, by decide, rfl, by decide, rfl, rfl⟩

theorem witness_SelfCopiesComplete :
    let s := atBlock .f10Pass2 0 true
    let r := blockOf .f10Pass2 0 true
    s.recon = some r ∧ r.surf.fit s.pixels ∧ r.b < s.blocks ∧
      s.inBounds (s.anchor r.b + (((0x4000 : BitVec 15).toNat : Int) - 0x4000)) = true ∧ r.pass = .f10Pass2 ∧
      r.wordDue = true ∧ (blockOf .f6Pass2 0 false).pass = .f6Pass2 :=
  ⟨rfl, grid_fit 1 1, by decide, by decide, rfl, rfl, rfl⟩

/-- The first frame number at which R1 is read; and a flag that is there. -/
theorem witness_CoLocatedCopiesComplete :
    ((atBlock .f6Pass1 2 false).recon = some (blockOf .f6Pass1 2 false) ∧
      (blockOf .f6Pass1 2 false).surf.fit (atBlock .f6Pass1 2 false).pixels ∧
      (blockOf .f6Pass1 2 false).b < (atBlock .f6Pass1 2 false).blocks ∧ 1 < (blockOf .f6Pass1 2 false).fn) ∧
    ((atBlock .f10Pass3 0 false).recon = some (blockOf .f10Pass3 0 false) ∧ (blockOf .f10Pass3 0 false).pass = .f10Pass3 ∧
      (blockOf .f10Pass3 0 false).skip.next (atBlock .f10Pass3 0 false).sm = .ok (false, ⟨1, 0, 15⟩)) :=
  ⟨⟨rfl, grid_fit 1 1, by decide, by decide⟩, rfl, rfl, by decide⟩

/-- The last gated frame numbers: 0 for INTER, 1 for REF1. -/
theorem witness_GatedAndNoOperationWordsComplete :
    (atBlock .f6Pass2 0 false).recon = some (blockOf .f6Pass2 0 false) ∧
    (blockOf .f6Pass2 0 false).b < (atBlock .f6Pass2 0 false).blocks ∧ (blockOf .f6Pass2 0 false).fn = 0 ∧
    (blockOf .f6Pass1 1 false).fn = 1 ∧ (blockOf .f6Pass1 1 false).pass = .f6Pass1 ∧
    (blockOf .f10Pass1 0 true).wordDue = true ∧ (blockOf .f10Pass2 0 true).wordDue = true :=
  ⟨rfl, by decide, rfl, rfl, rfl, rfl, rfl⟩

theorem witness_SkipFlagsComplete :
    (atBlock .f10Pass1 0 false).recon = some (blockOf .f10Pass1 0 false) ∧
    (blockOf .f10Pass1 0 false).b < (atBlock .f10Pass1 0 false).blocks ∧
    (blockOf .f10Pass1 0 false).skip.next (atBlock .f10Pass1 0 false).sm = .ok (false, ⟨1, 0, 15⟩) ∧
    (blockOf .f10Pass1 0 false).wordDue = false ∧ (blockOf .f10Pass2 0 false).pass = .f10Pass2 ∧
    (blockOf .f10Pass3 0 false).pass = .f10Pass3 :=
  ⟨rfl, by decide, by decide, rfl, rfl, rfl⟩

/-- Offset 1, at the first frame number that checks it. -/
theorem witness_OutOfBoundsCopiesRaise :
    let s := atBlock .f6Pass2 1 false
    let r := blockOf .f6Pass2 1 false
    s.recon = some r ∧ r.b < s.blocks ∧ s.inBounds (s.anchor r.b + (((0x4001 : BitVec 15).toNat : Int) - 0x4000)) = false ∧
      r.pass = .f6Pass2 ∧ 0 < r.fn ∧ (blockOf .f10Pass2 0 true).pass = .f10Pass2 ∧ (blockOf .f10Pass2 0 true).wordDue = true :=
  ⟨rfl, by decide, by decide, rfl, by decide, rfl, rfl⟩

/-- A literal of 63 bytes, and half a skip word. -/
theorem witness_ExhaustedInputsRaise :
    let s : State := { atBlock .f6Pass1 0 false with fd := ramp.take 63, sm := [1] }
    s.recon = some (blockOf .f6Pass1 0 false) ∧ (blockOf .f6Pass1 0 false).b < s.blocks ∧
      s.fd.length + 1 = (blockOf .f6Pass1 0 false).lc + 64 ∧ (blockOf .f10Pass1 0 true).wordDue = true ∧
      (blockOf .f10Pass3 0 false).pass = .f10Pass3 ∧ (blockOf .f10Pass1 0 false).wordDue = false ∧
      (blockOf .f10Pass3 0 false).skip.bits = 0 ∧ s.sm.length < 2 * (blockOf .f10Pass3 0 false).skip.pos + 2 :=
  ⟨rfl, by decide, by decide, rfl, rfl, rfl, rfl, by decide⟩

/-- Outside a SendVideo; just past the last block; a format-6 word in pass 1 of format 10, a map word where a flag is read, and
a flag where a map word is due; and, for the other direction, a SKIP.N in pass 3. -/
theorem witness_BlockInstructionsNeedTheirPass :
    Instr.f6Lit.context ≠ .stream ∧ State.reset.recon = none ∧
    (∃ r, (inPass (grid 1 1) .f6Pass1 0 1 0 false).recon = some r ∧ (inPass (grid 1 1) .f6Pass1 0 1 0 false).blocks ≤ r.b) ∧
    (atBlock .f10Pass1 0 true).recon = some (blockOf .f10Pass1 0 true) ∧
    (blockOf .f10Pass1 0 true).b < (atBlock .f10Pass1 0 true).blocks ∧
    ¬Instr.f6Lit.readAs (blockOf .f10Pass1 0 true).context ∧ ¬Instr.f10Lit.readAs (blockOf .f10Pass1 0 false).context ∧
    ¬Instr.skipS.readAs (blockOf .f10Pass1 0 true).context ∧ Instr.skipN.readAs (blockOf .f10Pass3 0 false).context :=
  ⟨by decide, rfl, ⟨_, rfl, by decide⟩, rfl, by decide, by unfold Instr.readAs; decide, by unfold Instr.readAs; decide,
    by unfold Instr.readAs; decide, by unfold Instr.readAs; decide⟩

theorem witness_AnchorsAreInRange : 0 < (grid 2 3).blocks ∧ 5 < (grid 2 3).blocks := by decide

theorem witness_BoundsCheckMeansInside : 0 < (grid 2 3).blocks ∧ (grid 2 3).inBounds (16 * 16 + 8) = true := by decide

/-- On a 2 × 2 grid: dy = 0, dy = −8 and dx = 8. -/
theorem witness_NoOverlapMeansPlainCopy :
    let s := grid 2 2
    3 < s.blocks ∧ s.inBounds (s.sourceAddr 3 0) = true ∧
    8 * ((3 / s.wBlk.toNat : Nat) : Int) ≤ s.sourceAddr 3 0 / s.width ∧
    s.inBounds (s.sourceAddr 3 (-128)) = true ∧
    s.sourceAddr 3 (-128) / s.width = 8 * ((3 / s.wBlk.toNat : Nat) : Int) - 8 ∧
    s.inBounds (s.sourceAddr 2 (-8)) = true ∧
    s.sourceAddr 2 (-8) % s.width - 8 * ((2 % s.wBlk.toNat : Nat) : Int) = 8 := by decide

/-- The last flag of the only word, and the call after it. -/
theorem witness_SkipStreamClosedForm :
    2 * (15 / 16) + 2 ≤ ([1, 0, 1] : List Byte).length ∧ ([1, 0, 1] : List Byte).length < 2 * (16 / 16) + 2 := by decide

theorem witness_LoadChecksTheHeader :
    (headerBytes.take 24).length < 25 ∧ 25 ≤ (List.replicate 25 (0 : Byte)).length ∧
    (List.replicate 25 (0 : Byte)).take 25 ≠ headerBytes := by decide

/-- The first packet header one byte short, and there with the kinds 3 and 65535. -/
theorem witness_LoadReadsTheFirstPacketHeader :
    (headerBytes ++ [0, 0, 3]).take 25 = headerBytes ∧ (headerBytes ++ [0, 0, 3]).length = 28 ∧
    (headerBytes ++ [0, 0, 3, 0]).length = 29 ∧ (u16LE (headerBytes ++ [0, 0, 3, 0]) 27).toNat = 3 ∧
    (u16LE (headerBytes ++ [0, 0, 0xFF, 0xFF]) 27).toNat = 65535 := by decide

theorem witness_LoadDrainsConfigurationPackets :
    ∃ t, load (headerBytes ++ [0, 0, 3, 0]) = (t, .ok) :=
  ⟨_, rfl⟩

theorem witness_IdleAdvanceFrame :
    { State.reset with err := some ErrCode.truncated }.err = some .truncated ∧ { State.reset with done := true, loaded := true }.done = true ∧
    State.reset.err = none ∧ State.reset.loaded = false := by decide

/-- A frame and then a record with an illegal tag. -/
def faultyFrame : State := { literalFrame (-1) with
  src := some (List.replicate 30 0 ++ [0x06, 0x00, 0x07, 0x01, 0, 0, 0, 0, 0, 0, 0x00, 0x00, 0xBE, 0xEF]) }

theorem faultyFrame_inv : faultyFrame.Inv where
  vidOn _ := ⟨by decide, by decide, rfl⟩
  vidOff h := by cases h
  fit := grid_fit 1 1
  timer h := by cases h
  audOn h := by cases h
  audOff _ := rfl
  pal := by simp [faultyFrame, literalFrame, frame, grid, fetching, State.reset, Config.palBytes]
  buffers := by decide
  fmt h := by cases h
  frameNo := by decide
  cursor _ := by decide
  recon r h := by cases h

/-- A frame and then an End; an End alone; a frame and then a fault, after which FRAME_NO has grown and ok is not returned. -/
theorem witness_AdvanceFrameCountsFrames :
    (literalFrame (-1)).Inv ∧ (literalFrame (-1)).recon = none ∧ (literalFrame (-1)).err = none ∧
    (advanceFrame (literalFrame (-1))).2 = .ok ∧
    (fetching [0, 0, 0, 0]).Inv ∧ (advanceFrame (fetching [0, 0, 0, 0])).2 = .endOfStream ∧
    (fetching [0, 0, 0, 0]).loaded = true ∧
    faultyFrame.Inv ∧ (advanceFrame faultyFrame).2 = .fault .unknownOpcode ∧ (advanceFrame faultyFrame).1.frameNo = 0 :=
  ⟨literalFrame_inv (by decide), rfl, rfl, by decide +kernel, fetching_inv, by decide, rfl, faultyFrame_inv,
    by decide +kernel, by decide +kernel⟩

theorem witness_HostCommandsReturn : (wordFrame 0 0 (-1)).Inv ∧ (wordFrame 0 0 (-1)).recon = none :=
  ⟨wordFrame_inv (by decide), rfl⟩

theorem witness_AccessorValues :
    configured.Inv ∧ configured.tmrSet = true ∧ configured.audInit = true ∧
    (fetching []).Inv ∧ (fetching []).vidInit = false ∧ (fetching []).tmrSet = false ∧ (fetching []).audInit = false :=
  ⟨configured_inv, rfl, rfl, fetching_inv, rfl, rfl, rfl⟩

end Sys2Proof.Tests
end

section
/-! A SendVideo is the run of its second-level instructions (O39). A block of a pass is one sub-step, or two when a skip flag
of 1 is followed by a map word; each sub-step answers what the sequencer's own part for that block answers, so a pass, and
then the whole reconstruction, is composed of sub-steps by `bind`. -/

namespace Sys2Proof.Machine

/-! ### Answers of the rules: the value every completion has -/

@[simp] theorem Res.ok_bind {α β : Type} (a : α) (f : α → Res β) : ((.ok a : Res α) >>= f) = f a := rfl
@[simp] theorem Res.error_bind {α β : Type} (e : Stop) (f : α → Res β) : ((.error e : Res α) >>= f) = .error e := rfl

/-- If the rule completes, its value satisfies `P`. -/
def Res.All {α : Type} (P : α → Prop) (x : Res α) : Prop := ∀ a, x = .ok a → P a

theorem Res.all_ok {α : Type} {P : α → Prop} {a : α} (h : P a) : Res.All P (.ok a) := by
  rintro _ ⟨⟩; exact h

theorem Res.All.bind {α β : Type} {P : α → Prop} {Q : β → Prop} {x : Res α} {f : α → Res β} (hx : Res.All P x)
    (hf : ∀ a, P a → Res.All Q (f a)) : Res.All Q (x >>= f) := by
  cases x with
  | error e => rintro _ ⟨⟩
  | ok a => exact hf a (hx a rfl)

theorem Res.all_bind {α β : Type} {Q : β → Prop} {x : Res α} {f : α → Res β} (hf : ∀ a, Res.All Q (f a)) :
    Res.All Q (x >>= f) :=
  Res.All.bind (P := fun _ => True) (fun _ _ => trivial) fun a _ => hf a

theorem Res.all_ite {α : Type} {P : α → Prop} {c : Prop} [Decidable c] {x y : Res α} (hx : Res.All P x)
    (hy : Res.All P y) : Res.All P (if c then x else y) := by
  split
  · exact hx
  · exact hy

/-! ### Where a block leaves the SendVideo in progress -/

/-- At the start of block `b` of pass `p`, no map word being due. -/
def Recon.At (p : Pass) (b : Nat) (r : Recon) : Prop := r.pass = p ∧ r.b = b ∧ r.wordDue = false

theorem Recon.enter_at (r : Recon) (p : Pass) (mc : Nat) : (r.enter p mc).At p 0 := ⟨rfl, rfl, rfl⟩

theorem openRecon_at (s : State) (p : Pass) (mc lc : Nat) (x : Surfaces) : (s.openRecon p mc lc x).At p 0 :=
  ⟨rfl, rfl, rfl⟩

/-- The part of pass 1 of format 10 that follows a skip flag of 1 (R241). -/
def f10Word1 (s : State) (r : Recon) : Res Recon := do
  let op ← mapWordAt s.dm r.mc
  if op = 0 then f10Lit s r else f10Nop1 r

/-- The part of pass 2 of format 10 that follows a skip flag of 1 (R243). -/
def f10Word2 (s : State) (r : Recon) : Res Recon := do
  let op ← mapWordAt s.dm r.mc
  if op = 0 then f10Nop2 r
  else if sourceSelect op then f10Prev (biasedOffset op) s r
  else f10Cur (biasedOffset op) s r

theorem f6Block1_moves (s : State) {r : Recon} {p : Pass} (hp : r.pass = p) :
    Res.All (Recon.At p (r.b + 1)) (f6Block1 s r) :=
  Res.all_bind fun _ => Res.all_ite (Res.all_bind fun _ => Res.all_ok ⟨hp, rfl, rfl⟩)
    (Res.all_ite (Res.all_bind fun _ => Res.all_ok ⟨hp, rfl, rfl⟩) (Res.all_ok ⟨hp, rfl, rfl⟩))

theorem f6Block2_moves (s : State) {r : Recon} {p : Pass} (hp : r.pass = p) :
    Res.All (Recon.At p (r.b + 1)) (f6Block2 s r) :=
  Res.all_bind fun _ => Res.all_ite (Res.all_ok ⟨hp, rfl, rfl⟩) (Res.all_ite
    (Res.all_ite (Res.all_bind fun _ => Res.all_ok ⟨hp, rfl, rfl⟩) (Res.all_ok ⟨hp, rfl, rfl⟩))
    (Res.all_bind fun _ => Res.all_ok ⟨hp, rfl, rfl⟩))

theorem f10Word1_moves (s : State) {r : Recon} {p : Pass} (hp : r.pass = p) :
    Res.All (Recon.At p (r.b + 1)) (f10Word1 s r) :=
  Res.all_bind fun _ => Res.all_ite (Res.all_bind fun _ => Res.all_ok ⟨hp, rfl, rfl⟩) (Res.all_ok ⟨hp, rfl, rfl⟩)

theorem f10Word2_moves (s : State) {r : Recon} {p : Pass} (hp : r.pass = p) :
    Res.All (Recon.At p (r.b + 1)) (f10Word2 s r) :=
  Res.all_bind fun _ => Res.all_ite (Res.all_ok ⟨hp, rfl, rfl⟩) (Res.all_ite
    (Res.all_bind fun _ => Res.all_ok ⟨hp, rfl, rfl⟩) (Res.all_bind fun _ => Res.all_ok ⟨hp, rfl, rfl⟩))

/-- R212: taking the flag moves the skip stream only. -/
theorem takeFlag_stays (s : State) {r : Recon} {p : Pass} (hp : r.pass = p) :
    Res.All (fun r' => r'.pass = p ∧ r'.b = r.b) (takeFlag s r) :=
  Res.all_bind fun _ => Res.all_ok ⟨hp, rfl⟩

theorem skipBlock_moves (s : State) {r : Recon} {p : Pass} (hp : r.pass = p) :
    Res.All (Recon.At p (r.b + 1)) (skipBlock s r) :=
  (takeFlag_stays s hp).bind fun _ ⟨hp', hb'⟩ => Res.all_ok ⟨hp', congrArg (· + 1) hb', rfl⟩

theorem showBlock_moves (s : State) {r : Recon} {p : Pass} (hp : r.pass = p) :
    Res.All (Recon.At p (r.b + 1)) (showBlock s r) :=
  (takeFlag_stays s hp).bind fun _ ⟨hp', hb'⟩ => Res.all_bind fun _ => Res.all_ok ⟨hp', congrArg (· + 1) hb', rfl⟩

theorem f10Block3_moves (s : State) {r : Recon} {p : Pass} (hp : r.pass = p) :
    Res.All (Recon.At p (r.b + 1)) (f10Block3 s r) :=
  Res.all_bind fun _ => Res.all_ite (skipBlock_moves s hp) (showBlock_moves s hp)

/-- R212: before pass 3, a block that is not skipped stays where it is with its map word due. -/
theorem keepBlock_stays (s : State) {r : Recon} {p : Pass} (hp : r.pass = p) (hp3 : p ≠ .f10Pass3) :
    Res.All (fun r' => r'.pass = p ∧ r'.b = r.b ∧ r'.wordDue = true) (keepBlock s r) := by
  rw [keepBlock, if_neg (hp ▸ hp3)]
  exact (takeFlag_stays s hp).bind fun _ ⟨hp', hb'⟩ => Res.all_ok ⟨hp', hb', rfl⟩

/-! ### The sub-steps -/

/-- The state inside a SendVideo whose progress is `r`. -/
def State.during (s : State) (r : Recon) : State := { s with recon := some r }

/-- The answer of a sub-step whose effect on the SendVideo in progress is `x`. -/
def blockAnswer (s : State) : Res Recon → Answer
  | .ok r => .next (s.during r)
  | .error (.raised c) => raiseIn s c
  | .error (.stopped f) => .fault f

/-- A second-level instruction executed in its own pass, at a block of the grid, answers its effect. -/
theorem onBlock_during {ctx : List Context} {op : State → Recon → Res Recon} {s : State} {r : Recon} {x : Res Recon}
    (hc : r.context ∈ ctx) (hb : r.b < s.blocks) (hop : op (s.during r) r = x) :
    onBlock ctx op (s.during r) = blockAnswer s x := by
  have hcb : r.context ∈ ctx ∧ r.b < (s.during r).blocks := ⟨hc, hb⟩
  subst hop
  simp only [onBlock, show (s.during r).recon = some r from rfl, if_pos hcb]
  cases op (s.during r) r with
  | ok r' => rfl
  | error e => cases e <;> rfl

theorem exec_decodeF6Pass1 {s : State} {r : Recon} (hp : r.pass = .f6Pass1) (hb : r.b < s.blocks) (op : Word16) :
    exec (decodeF6Pass1 op) (s.during r) = blockAnswer s (if op = 0 then f6Lit s r else f6Ref1 s r) := by
  have hc : r.context ∈ [Context.f6Pass1] := by simp [Recon.context, hp]
  unfold decodeF6Pass1
  split
  · exact onBlock_during (op := f6Lit) hc hb rfl
  · exact onBlock_during (op := f6Ref1) hc hb rfl

theorem exec_decodeF6Pass2 {s : State} {r : Recon} (hp : r.pass = .f6Pass2) (hb : r.b < s.blocks) (op : Word16) :
    exec (decodeF6Pass2 op) (s.during r) = blockAnswer s (if op = 0 then f6Nop2 r
      else if sourceSelect op then f6Inter (biasedOffset op) s r else f6Intra (biasedOffset op) s r) := by
  have hc : r.context ∈ [Context.f6Pass2] := by simp [Recon.context, hp]
  unfold decodeF6Pass2
  split
  · exact onBlock_during (op := fun _ r => f6Nop2 r) hc hb rfl
  split
  · exact onBlock_during (op := f6Inter _) hc hb rfl
  · exact onBlock_during (op := f6Intra _) hc hb rfl

theorem exec_decodeF10Pass1 {s : State} {r : Recon} (hp : r.pass = .f10Pass1) (hw : r.wordDue = true)
    (hb : r.b < s.blocks) (op : Word16) :
    exec (decodeF10Pass1 op) (s.during r) = blockAnswer s (if op = 0 then f10Lit s r else f10Nop1 r) := by
  have hc : r.context ∈ [Context.f10Pass1] := by simp [Recon.context, hp, hw]
  unfold decodeF10Pass1
  split
  · exact onBlock_during (op := f10Lit) hc hb rfl
  · exact onBlock_during (op := fun _ r => f10Nop1 r) hc hb rfl

theorem exec_decodeF10Pass2 {s : State} {r : Recon} (hp : r.pass = .f10Pass2) (hw : r.wordDue = true)
    (hb : r.b < s.blocks) (op : Word16) :
    exec (decodeF10Pass2 op) (s.during r) = blockAnswer s (if op = 0 then f10Nop2 r
      else if sourceSelect op then f10Prev (biasedOffset op) s r else f10Cur (biasedOffset op) s r) := by
  have hc : r.context ∈ [Context.f10Pass2] := by simp [Recon.context, hp, hw]
  unfold decodeF10Pass2
  split
  · exact onBlock_during (op := fun _ r => f10Nop2 r) hc hb rfl
  split
  · exact onBlock_during (op := f10Prev _) hc hb rfl
  · exact onBlock_during (op := f10Cur _) hc hb rfl

theorem exec_decodeSkipFlag {s : State} {r : Recon} (hc : r.context = .skipFlag) (hb : r.b < s.blocks) (bit : Bool) :
    exec (decodeSkipFlag bit) (s.during r) = blockAnswer s (if bit then keepBlock s r else skipBlock s r) := by
  have hc : r.context ∈ [Context.skipFlag, .showFlag] := by simp [hc]
  cases bit with
  | true => exact onBlock_during (op := keepBlock) hc hb rfl
  | false => exact onBlock_during (op := skipBlock) hc hb rfl

theorem exec_decodeShowFlag {s : State} {r : Recon} (hc : r.context = .showFlag) (hb : r.b < s.blocks) (bit : Bool) :
    exec (decodeShowFlag bit) (s.during r) = blockAnswer s (if bit then showBlock s r else skipBlock s r) := by
  cases bit with
  | true => exact onBlock_during (op := showBlock) (by simp [hc]) hb rfl
  | false => exact onBlock_during (op := skipBlock) (by simp [hc]) hb rfl

theorem step_during {s : State} (he : s.enabled = true) (r : Recon) : step (s.during r) = stepBlock (s.during r) r := by
  have hd : (s.during r).enabled = true := he
  simp only [step, if_pos hd, show (s.during r).recon = some r from rfl]

/-- A sub-step reads a word or a flag from `x`, decodes it by `d`, and answers the effect `f` of what it decoded. -/
theorem step_of_fetch {α : Type} {s : State} {r : Recon} {x : Res α} {d : α → Instr} {f : α → Res Recon}
    (he : s.enabled = true) (hb : r.b < s.blocks) (hf : fetchBlock (s.during r) r = x >>= fun a => .ok (d a))
    (hx : ∀ a, exec (d a) (s.during r) = blockAnswer s (f a)) :
    step (s.during r) = blockAnswer s (x >>= f) := by
  have hd : r.b < (s.during r).blocks := hb
  rw [step_during he, stepBlock, if_pos hd, hf]
  cases x with
  | ok a => exact hx a
  | error e => cases e <;> rfl

theorem step_f6Pass1 {s : State} {r : Recon} (he : s.enabled = true) (hb : r.b < s.blocks) (hp : r.pass = .f6Pass1) :
    step (s.during r) = blockAnswer s (f6Block1 s r) :=
  step_of_fetch he hb (by rw [fetchBlock, hp]; rfl) (exec_decodeF6Pass1 hp hb)

theorem step_f6Pass2 {s : State} {r : Recon} (he : s.enabled = true) (hb : r.b < s.blocks) (hp : r.pass = .f6Pass2) :
    step (s.during r) = blockAnswer s (f6Block2 s r) :=
  step_of_fetch he hb (by rw [fetchBlock, hp]; rfl) (exec_decodeF6Pass2 hp hb)

theorem step_f10Word1 {s : State} {r : Recon} (he : s.enabled = true) (hb : r.b < s.blocks) (hp : r.pass = .f10Pass1)
    (hw : r.wordDue = true) : step (s.during r) = blockAnswer s (f10Word1 s r) :=
  step_of_fetch he hb (by rw [fetchBlock, hp]; exact if_pos hw) (exec_decodeF10Pass1 hp hw hb)

theorem step_f10Word2 {s : State} {r : Recon} (he : s.enabled = true) (hb : r.b < s.blocks) (hp : r.pass = .f10Pass2)
    (hw : r.wordDue = true) : step (s.during r) = blockAnswer s (f10Word2 s r) :=
  step_of_fetch he hb (by rw [fetchBlock, hp]; exact if_pos hw) (exec_decodeF10Pass2 hp hw hb)

/-- The sequencers ask the skip stream whether the block is skipped; the fetch reads its flag, which says the opposite. -/
theorem next_bind_eq_nextFlag_bind (s : State) (r : Recon) (skip keep : Res Recon) :
    (r.skip.next s.sm >>= fun k => if k.1 then skip else keep) =
      nextFlag s r >>= fun bit => if bit then keep else skip := by
  unfold nextFlag
  cases r.skip.next s.sm with
  | error e => rfl
  | ok k => cases hk : k.1 <;> simp [hk]

/-- R212: in passes 1 and 2 of format 10, the sub-step that reads the block's flag. -/
theorem step_skipFlag {s : State} {r : Recon} (he : s.enabled = true) (hb : r.b < s.blocks)
    (hp : r.pass = .f10Pass1 ∨ r.pass = .f10Pass2) (hw : r.wordDue = false) :
    step (s.during r) =
      blockAnswer s (nextFlag s r >>= fun bit => if bit then keepBlock s r else skipBlock s r) := by
  have hc : r.context = .skipFlag := by rcases hp with hp | hp <;> simp [Recon.context, hp, hw]
  refine step_of_fetch he hb ?_ (exec_decodeSkipFlag hc hb)
  rcases hp with hp | hp
  · rw [fetchBlock, hp]; exact if_neg (by simp [hw])
  · rw [fetchBlock, hp]; exact if_neg (by simp [hw])

theorem step_f10Pass3 {s : State} {r : Recon} (he : s.enabled = true) (hb : r.b < s.blocks) (hp : r.pass = .f10Pass3) :
    step (s.during r) = blockAnswer s (f10Block3 s r) := by
  rw [f10Block3, next_bind_eq_nextFlag_bind]
  exact step_of_fetch he hb (by rw [fetchBlock, hp]; rfl) (exec_decodeShowFlag (by rw [Recon.context, hp]) hb)

/-! ### Runs of sub-steps -/

/-- The run from `r` on ends in the answer of a SendVideo whose reconstructor answers `x`. -/
def RunsTo (s : State) (r : Recon) (x : Res Recon) : Prop :=
  ∃ n, runBlocks n (s.during r) = finishVideo s x

theorem runBlocks_succ_of_next {s t : State} {r : Recon} (h : step (s.during r) = .next t) (n : Nat) :
    runBlocks (n + 1) (s.during r) = runBlocks n t := by
  simp only [runBlocks, show (s.during r).recon = some r from rfl, h]

theorem runBlocks_one_of_fault {s : State} {r : Recon} {f : Fault} (h : step (s.during r) = .fault f) :
    runBlocks 1 (s.during r) = .fault f := by
  simp only [runBlocks, show (s.during r).recon = some r from rfl, h]

/-- A sub-step whose effect is `x`, followed by runs to `k` of what it leaves, runs to `x` followed by `k`. -/
theorem RunsTo.of_step {s : State} {r : Recon} {x : Res Recon} {k : Recon → Res Recon} {P : Recon → Prop}
    (h : step (s.during r) = blockAnswer s x) (hx : Res.All P x) (hk : ∀ r', P r' → RunsTo s r' (k r')) :
    RunsTo s r (x >>= k) := by
  cases x with
  | error e =>
    cases e with
    | raised c => exact ⟨1, runBlocks_succ_of_next h 0⟩
    | stopped f => exact ⟨1, runBlocks_one_of_fault h⟩
  | ok r' =>
    obtain ⟨n, hn⟩ := hk r' (hx r' rfl)
    exact ⟨n + 1, (runBlocks_succ_of_next h n).trans hn⟩

theorem step_turn {s : State} {r : Recon} (he : s.enabled = true) (hb : r.b = s.blocks) :
    step (s.during r) = .next (turnPass (s.during r) r) := by
  have hd : ¬r.b < (s.during r).blocks := Nat.not_lt.2 (Nat.le_of_eq hb.symm)
  rw [step_during he, stepBlock, if_neg hd]

/-- Past the last block of a pass that another follows, the run goes on in that pass. -/
theorem RunsTo.of_turn {s : State} {r q : Recon} {x : Res Recon} (he : s.enabled = true) (hb : r.b = s.blocks)
    (ht : turnPass (s.during r) r = s.during q) (hq : RunsTo s q x) : RunsTo s r x := by
  obtain ⟨n, hn⟩ := hq
  exact ⟨n + 1, (runBlocks_succ_of_next (ht ▸ step_turn he hb) n).trans hn⟩

/-- Past the last block of the last pass, the run ends in the commit. -/
theorem RunsTo.of_commit {s : State} {r q : Recon} (he : s.enabled = true) (hb : r.b = s.blocks)
    (ht : turnPass (s.during r) r = s.commit q) : RunsTo s r (.ok q) :=
  ⟨1, runBlocks_succ_of_next (ht ▸ step_turn he hb) 0⟩

/-! ### Runs of blocks and of passes -/

/-- Every block of pass `p` is run by its sub-steps: they run to `block` followed by what the next block runs to. -/
def RunsBlocks (s : State) (p : Pass) (block : Recon → Res Recon) : Prop :=
  ∀ (r : Recon) (k : Recon → Res Recon), r.b < s.blocks → r.At p r.b →
    (∀ r', r'.At p (r.b + 1) → RunsTo s r' (k r')) → RunsTo s r (block r >>= k)

/-- A pass whose block is one sub-step. -/
theorem runsBlocks_of_step {s : State} {p : Pass} {block : Recon → Res Recon}
    (hstep : ∀ r, r.b < s.blocks → r.pass = p → step (s.during r) = blockAnswer s (block r))
    (hmoves : ∀ r, r.pass = p → Res.All (Recon.At p (r.b + 1)) (block r)) : RunsBlocks s p block :=
  fun r _ hb ⟨hp, _⟩ hk => .of_step (hstep r hb hp) (hmoves r hp) hk

/-- A pass whose block is a skip flag and, when the flag is 1, the sub-step `word` of its map word. -/
theorem runsBlocks_of_flag {s : State} {p : Pass} {block word : Recon → Res Recon} (he : s.enabled = true)
    (hp12 : p = .f10Pass1 ∨ p = .f10Pass2)
    (hblock : ∀ r, block r = nextFlag s r >>= fun bit => if bit then keepBlock s r >>= word else skipBlock s r)
    (hstep : ∀ r, r.b < s.blocks → r.pass = p → r.wordDue = true → step (s.during r) = blockAnswer s (word r))
    (hmoves : ∀ r, r.pass = p → Res.All (Recon.At p (r.b + 1)) (word r)) : RunsBlocks s p block := by
  rintro r k hb ⟨rfl, -, hw⟩ hk
  have hflag := step_skipFlag he hb hp12 hw
  rw [hblock]
  cases hbit : nextFlag s r with
  | error e =>
    rw [hbit] at hflag
    exact .of_step (P := fun _ => False) (x := .error e) hflag nofun nofun
  | ok bit =>
    rw [hbit] at hflag
    cases bit with
    | false => exact .of_step hflag (skipBlock_moves s rfl) hk
    | true =>
      have hp3 : r.pass ≠ .f10Pass3 := by rcases hp12 with hp | hp <;> simp [hp]
      have hkeep : RunsTo s r (keepBlock s r >>= fun r' => word r' >>= k) :=
        .of_step hflag (keepBlock_stays s rfl hp3) fun r' ⟨hp', hb', hw'⟩ =>
          .of_step (hstep r' (hb' ▸ hb) hp' hw') (hmoves r' hp') (hb' ▸ hk)
      simpa using hkeep

theorem runsBlocks_f6Pass1 {s : State} (he : s.enabled = true) : RunsBlocks s .f6Pass1 (f6Block1 s) :=
  runsBlocks_of_step (fun _ => step_f6Pass1 he) fun _ => f6Block1_moves s

theorem runsBlocks_f6Pass2 {s : State} (he : s.enabled = true) : RunsBlocks s .f6Pass2 (f6Block2 s) :=
  runsBlocks_of_step (fun _ => step_f6Pass2 he) fun _ => f6Block2_moves s

theorem runsBlocks_f10Pass1 {s : State} (he : s.enabled = true) : RunsBlocks s .f10Pass1 (f10Block1 s) :=
  runsBlocks_of_flag he (.inl rfl) (fun r => next_bind_eq_nextFlag_bind s r _ _) (fun _ => step_f10Word1 he)
    fun _ => f10Word1_moves s

theorem runsBlocks_f10Pass2 {s : State} (he : s.enabled = true) : RunsBlocks s .f10Pass2 (f10Block2 s) :=
  runsBlocks_of_flag he (.inr rfl) (fun r => next_bind_eq_nextFlag_bind s r _ _) (fun _ => step_f10Word2 he)
    fun _ => f10Word2_moves s

theorem runsBlocks_f10Pass3 {s : State} (he : s.enabled = true) : RunsBlocks s .f10Pass3 (f10Block3 s) :=
  runsBlocks_of_step (fun _ => step_f10Pass3 he) fun _ => f10Block3_moves s

/-- R231: a pass is run by its sub-steps, from the block it has come to. -/
theorem RunsBlocks.runPass {s : State} {p : Pass} {block : Recon → Res Recon} (h : RunsBlocks s p block)
    {k : Recon → Res Recon} (hk : ∀ r', r'.At p s.blocks → RunsTo s r' (k r')) (n : Nat) {r : Recon} {b : Nat}
    (hn : b + n = s.blocks) (hr : r.At p b) : RunsTo s r (runPass block n r >>= k) := by
  induction n generalizing r b with
  | zero => exact hk r (hn ▸ hr)
  | succ n ih =>
    obtain ⟨-, rfl, -⟩ := id hr
    rw [Machine.runPass, bind_assoc]
    exact h r _ (by omega) hr fun r' hr' => ih (by omega) hr'

/-! ### The two reconstructors -/

theorem runsTo_format6 {s : State} {r : Recon} (he : s.enabled = true) (hr : r.At .f6Pass1 0) :
    RunsTo s r (runPass (f6Block1 s) s.blocks r >>= fun r =>
      runPass (f6Block2 s) s.blocks (r.enter .f6Pass2 Config.fdHdr)) := by
  refine (runsBlocks_f6Pass1 he).runPass (fun r₁ ⟨hp₁, hb₁, _⟩ => ?_) s.blocks (Nat.zero_add _) hr
  refine .of_turn he hb₁ (by rw [turnPass, hp₁]; rfl) ?_
  rw [← bind_pure (runPass (f6Block2 s) _ _)]
  refine (runsBlocks_f6Pass2 he).runPass (fun r₂ ⟨hp₂, hb₂, _⟩ => ?_) s.blocks (Nat.zero_add _) (r₁.enter_at _ _)
  exact .of_commit he hb₂ (by rw [turnPass, hp₂]; rfl)

theorem runsTo_format10 {s : State} (he : s.enabled = true) : RunsTo s (openFormat10 s) (format10 s) := by
  refine (runsBlocks_f10Pass1 he).runPass (fun r₁ ⟨hp₁, hb₁, _⟩ => ?_) s.blocks (Nat.zero_add _) (openRecon_at _ _ _ _ _)
  refine .of_turn he hb₁ (by rw [turnPass, hp₁]; rfl) ?_
  refine (runsBlocks_f10Pass2 he).runPass (fun r₂ ⟨hp₂, hb₂, _⟩ => ?_) s.blocks (Nat.zero_add _) (r₁.enter_at _ _)
  refine .of_turn he hb₂ (by rw [turnPass, hp₂]; rfl) ?_
  refine (runsBlocks_f10Pass3 he).runPass (fun r₃ ⟨hp₃, hb₃, _⟩ => ?_) s.blocks (Nat.zero_add _) (r₂.enter_at _ _)
  exact .of_commit he hb₃ (by rw [turnPass, hp₃]; rfl)

theorem openFormat6_at {s : State} {r : Recon} (h : openFormat6 s = .ok r) : r.At .f6Pass1 0 :=
  Res.all_bind (fun _ => Res.all_ok (openRecon_at _ _ _ _ _)) r h

/-- R220: once InitVideo has run, SendVideo answers as the reconstructor of the pending format. -/
theorem exec_sendVideo_v6 {s : State} (v : SendVideoFields) (hv : s.vidInit = true) (hf : s.fmt = .v6) :
    exec (.sendVideo (.fields v)) s = finishVideo s (format6 s) := by
  simp [exec, execSendVideo, hv, hf]

theorem exec_sendVideo_v10 {s : State} (v : SendVideoFields) (hv : s.vidInit = true) (hf : s.fmt = .v10) :
    exec (.sendVideo (.fields v)) s = finishVideo s (format10 s) := by
  simp [exec, execSendVideo, hv, hf]

/-- Settles O39: each pass by induction on its blocks, each block by its sub-steps, and the passes joined at their turns. -/
theorem sendVideoIsItsBlockInstructions : Obligations.SendVideoIsItsBlockInstructions := by
  intro s v hl hd herr _ hv
  have he : s.enabled = true := by simp [State.enabled, hl, hd, herr]
  refine ⟨fun r hf hr => ?_, fun hf => ?_⟩
  · rw [exec_sendVideo_v6 v hv hf, format6, hr]
    exact runsTo_format6 he (openFormat6_at hr)
  · rw [exec_sendVideo_v10 v hv hf]
    exact runsTo_format10 he

end Sys2Proof.Machine
end

section
/-! What a step from outside a SendVideo can do (O10, O12, O13): either it takes a fault, or it fetched a record of one of the
15 opcodes, whole, and completed it. `State.Completes` lists the completions once, one per opcode with its guards; the
statements about such a step are read off that list. -/

namespace Sys2Proof

/-! ### The payload sizes of the formats with fields (R96 to R105) -/

theorem decodeTimer_length {p : List Byte} {v : TimerFields} (h : decodeTimer p = .fields v) : p.length = 6 := by
  unfold decodeTimer at h
  split at h
  · rfl
  · cases h

theorem decodeInitAudio_length {p : List Byte} {v : InitAudioFields} (h : decodeInitAudio p = .fields v) :
    p.length = 8 := by
  unfold decodeInitAudio at h
  split at h
  · rfl
  · cases h

theorem decodeInitVideo_length {p : List Byte} {v : InitVideoFields} (h : decodeInitVideo p = .fields v) :
    p.length = 8 := by
  unfold decodeInitVideo at h
  split at h
  · rfl
  · cases h

theorem decodeSendVideo_length {p : List Byte} {v : SendVideoFields} (h : decodeSendVideo p = .fields v) :
    p.length = 6 := by
  unfold decodeSendVideo at h
  split at h
  · rfl
  · cases h

theorem decodeAudioFrame_length {p : List Byte} {v : AudioFrameFields} (h : decodeAudioFrame p = .fields v) :
    p.length = 6 + v.pcm.length := by
  unfold decodeAudioFrame at h
  split at h
  · cases h; simp only [List.length_cons]; omega
  · cases h

theorem decodeAudioSilent_length {p : List Byte} {v : AudioSilentFields} (h : decodeAudioSilent p = .fields v) :
    p.length = 6 := by
  unfold decodeAudioSilent at h
  split at h
  · rfl
  · cases h

theorem decodePalette_length {p : List Byte} {v : PaletteFields} (h : decodePalette p = .fields v) :
    p.length = 4 + v.body.length := by
  unfold decodePalette at h
  split at h
  · cases h; simp only [List.length_cons]; omega
  · cases h

theorem Opcode.tag_eq_iff {a b : Opcode} : a.tag = b.tag ↔ a = b := ⟨Opcode.tag_injective, congrArg Opcode.tag⟩

/-- Everything `decodeRecord` reads: the four header bytes, and then either an illegal tag or a legal one with its payload. -/
theorem decodeRecord_inv {bytes : List Byte} {i : Instr} (h : decodeRecord bytes = .ok i) :
    ∃ l0 l1 t0 t1 rest, bytes = l0 :: l1 :: t0 :: t1 :: rest ∧
      (Opcode.ofTag (u16 t1 t0) = none ∧ i = .illegal (u16 l0 l1) (u16 t1 t0) ∨
        ∃ op, Opcode.ofTag (u16 t1 t0) = some op ∧ (u16 l0 l1).toNat ≤ rest.length ∧
          i = op.instr (rest.take (u16 l0 l1).toNat)) := by
  unfold decodeRecord at h
  split at h
  · next l0 l1 t0 t1 rest =>
    refine ⟨l0, l1, t0, t1, rest, rfl, ?_⟩
    dsimp only at h
    split at h
    · next ht => exact .inl ⟨ht, by cases h; rfl⟩
    · next op ht =>
      split at h
      · cases h
      · next hl => exact .inr ⟨op, ht, by omega, by cases h; rfl⟩
  · cases h

end Sys2Proof

namespace Sys2Proof.Machine

/-! ### The record at CUR -/

/-- The record at CUR has the tag of `op` and the payload `p`, and lies in SRC (R132 checks 1 to 3). -/
structure State.Holds (s : State) (op : Opcode) (p : List Byte) : Prop where
  tag : op.tag = u16BE s.source (s.cur + 2)
  length : p.length = (u16LE s.source s.cur).toNat
  bytes : p = bytesAt s.source (s.cur + 4) p.length
  room : s.cur + 4 + p.length ≤ s.source.length

/-- R92: payloadLength is a `u16`. -/
theorem State.Holds.length_le {s : State} {op : Opcode} {p : List Byte} (h : s.Holds op p) : p.length ≤ 65535 := by
  have := (u16LE s.source s.cur).isLt
  have := h.length
  omega

theorem getD_of_drop_eq {x y : List Byte} {a : Nat} (h : x.drop a = y) (k : Nat) : x.getD (a + k) 0 = y.getD k 0 := by
  simp only [← h, List.getD_eq_getElem?_getD, List.getElem?_drop]

/-- What is fetched: the illegal row, or the record of an opcode, whole. -/
theorem fetchRecord_inv {s : State} {i : Instr} (h : fetchRecord s = .ok i) :
    (∃ len tag, i = .illegal len tag) ∨ ∃ op p, s.Holds op p ∧ i = op.instr p := by
  have hd : decodeRecord (s.source.drop s.cur) = .ok i := by
    unfold fetchRecord at h
    split at h
    · next j hj => cases h; exact hj
    · cases h
  obtain ⟨l0, l1, t0, t1, rest, hdrop, ⟨-, rfl⟩ | ⟨op, hop, hlen, rfl⟩⟩ := decodeRecord_inv hd
  · exact .inl ⟨_, _, rfl⟩
  have hrest : s.source.drop (s.cur + 4) = rest := by rw [← List.drop_drop, hdrop]; rfl
  have hl : u16LE s.source s.cur = u16 l0 l1 := by
    rw [u16LE, getD_of_drop_eq hdrop 1]
    exact congrArg (u16 · l1) (getD_of_drop_eq hdrop 0)
  have ht : u16BE s.source (s.cur + 2) = u16 t1 t0 := by
    rw [u16BE, getD_of_drop_eq hdrop 2, Nat.add_assoc, getD_of_drop_eq hdrop 3]; rfl
  have hp : (rest.take (u16 l0 l1).toNat).length = (u16 l0 l1).toNat := by rw [List.length_take]; omega
  have hroom : s.source.length = s.cur + 4 + rest.length := by
    have hlen := congrArg List.length hdrop
    simp only [List.length_drop, List.length_cons] at hlen
    omega
  refine .inr ⟨op, _, ⟨?_, ?_, ?_, ?_⟩, rfl⟩
  · rw [ht, Opcode.tag_of_ofTag hop]
  · rw [hl, hp]
  · rw [hp, bytesAt, hrest]
  · omega

/-! ### The completions -/

/-- The state after the record of opcode `op` with payload `p` completes: its guards, and all that it changes. -/
inductive State.Completes (s : State) : Opcode → List Byte → State → Prop where
  | endStream : s.Completes .endStream [] (s.setDone.retire 0)
  | endPacket (room : s.cur + 8 ≤ s.source.length) : s.Completes .endPacket []
      { s with pktLen := u16LE s.source (s.cur + 4), pktKind := u16LE s.source (s.cur + 4 + 2), cur := s.cur + 4 + 4 }
  | timer {p : List Byte} {v : TimerFields} (hp : decodeTimer p = .fields v) (unset : ¬s.tmrSet = true)
      (product : v.rate.toNat * v.subdiv.toNat ≠ 0) : s.Completes .timer p
      { s.retire p.length with tmrRate := v.rate, tmrSubdiv := v.subdiv, tmrSet := true }
  | initAudio {p : List Byte} {v : InitAudioFields} (hp : decodeInitAudio p = .fields v) (unset : ¬s.audInit = true)
      (flags : v.flags &&& 3#16 = 0) : s.Completes .initAudio p { s.retire p.length with
        audUnk := v.unk, audFlags := v.flags, audRate := v.sampleRate, audBufLen := v.bufLen, audInit := true }
  | startAudio : s.Completes .startAudio [] (s.retire 0)
  | initVideo {p : List Byte} {v : InitVideoFields} (hp : decodeInitVideo p = .fields v) (unset : ¬s.vidInit = true)
      (grid : ¬(v.wBlocks = 0 ∨ v.hBlocks = 0)) (color : v.trueColor = 0) : s.Completes .initVideo p
      { s.retire p.length with
        wBlk := v.wBlocks, hBlk := v.hBlocks, vidCount := v.count, vidTrueColor := v.trueColor,
        surf := zeroSurfaces v.wBlocks v.hBlocks, vidInit := true }
  | frameDataV6 {p : List Byte} : s.Completes .frameDataV6 p { s.retire p.length with fd := p, fmt := .v6 }
  | sendVideo {p : List Byte} {r : Recon} (hp : p.length = 6) (vid : s.vidInit = true)
      (frame : s.fmt = .v6 ∧ format6 s = .ok r ∨ s.fmt = .v10 ∧ format10 s = .ok r) :
      s.Completes .sendVideo p (s.commit r)
  | audioFrame {p : List Byte} {v : AudioFrameFields} (hp : decodeAudioFrame p = .fields v) (aud : ¬s.audInit = false)
      (samples : v.pcm.length = v.len.toNat) : s.Completes .audioFrame p ((s.retire p.length).enqueue v.pcm)
  | audioSilent {p : List Byte} {v : AudioSilentFields} (hp : decodeAudioSilent p = .fields v)
      (aud : ¬s.audInit = false) : s.Completes .audioSilent p
      ((s.retire p.length).enqueue (List.replicate v.len.toNat Config.silenceSample))
  | setMode {p : List Byte} (hp : p.length = 6) : s.Completes .setMode p (s.retire p.length)
  | palette {p : List Byte} {v : PaletteFields} (hp : decodePalette p = .fields v)
      (triples : 3 * v.palCount.toNat ≤ v.body.length)
      (slots : v.palStart.toNat + v.palCount.toNat ≤ Config.palEntries) : s.Completes .palette p
      { (s.retire p.length).setPalDirty with
        pal := storeChannels s.pal (3 * v.palStart.toNat) (v.body.take (3 * v.palCount.toNat)) }
  | skipMap {p : List Byte} : s.Completes .skipMap p { s.retire p.length with sm := p }
  | decodingMap {p : List Byte} : s.Completes .decodingMap p { s.retire p.length with dm := p }
  | frameDataV10 {p : List Byte} : s.Completes .frameDataV10 p { s.retire p.length with fd := p, fmt := .v10 }

/-- All that executing a record of `op` can leave: the fault it takes, or its completion. -/
def State.Answers (s : State) (op : Opcode) (p : List Byte) (t : State) : Prop :=
  (∃ c, t = s.raise c) ∨ s.Completes op p t

section
variable {s t : State} {op : Opcode} {p : List Byte}

theorem answers_of_raise {c : ErrCode} (h : raiseIn s c = .next t) : s.Answers op p t := by
  cases h; exact .inl ⟨c, rfl⟩

/-- A check of an opcode: it takes its fault, or the meaning goes on. -/
theorem answers_of_check {a : Prop} [Decidable a] {c : ErrCode} {x : Answer}
    (h : (if a then raiseIn s c else x) = .next t) (hx : ¬a → x = .next t → s.Answers op p t) : s.Answers op p t := by
  split at h
  · exact answers_of_raise h
  · next ha => exact hx ha h

theorem execEndStream_next (h : execEndStream p s = .next t) : s.Answers .endStream p t :=
  answers_of_check h fun hp h => by
    cases h
    cases List.length_eq_zero_iff.1 (not_not.1 hp)
    exact .inr .endStream

theorem execEndPacket_next (h : execEndPacket p s = .next t) : s.Answers .endPacket p t :=
  answers_of_check h fun hp h => by
    rcases readPacketHeader_inv (s := s) (a := s.cur + 4) rfl with ⟨hroom, he⟩ | ⟨-, he⟩
    · rw [he] at h; cases h
      cases List.length_eq_zero_iff.1 (not_not.1 hp)
      exact .inr (.endPacket hroom)
    · rw [he] at h
      exact answers_of_raise h

theorem execTimer_next (h : execTimer (decodeTimer p) s = .next t) : s.Answers .timer p t := by
  cases hp : decodeTimer p with
  | missized q => rw [hp] at h; exact answers_of_raise h
  | fields v =>
    rw [hp, execTimer, ← decodeTimer_length hp] at h
    exact answers_of_check h fun hu h => answers_of_check h fun hz h => by
      cases h; exact .inr (.timer hp hu hz)

theorem execInitAudio_next (h : execInitAudio (decodeInitAudio p) s = .next t) : s.Answers .initAudio p t := by
  cases hp : decodeInitAudio p with
  | missized q => rw [hp] at h; exact answers_of_raise h
  | fields v =>
    rw [hp, execInitAudio, ← decodeInitAudio_length hp] at h
    exact answers_of_check h fun hu h => answers_of_check h fun hf h => by
      cases h; exact .inr (.initAudio hp hu (not_not.1 hf))

theorem execStartAudio_next (h : execStartAudio p s = .next t) : s.Answers .startAudio p t :=
  answers_of_check h fun hp h => by
    cases h
    cases List.length_eq_zero_iff.1 (not_not.1 hp)
    exact .inr .startAudio

theorem execInitVideo_next (h : execInitVideo (decodeInitVideo p) s = .next t) : s.Answers .initVideo p t := by
  cases hp : decodeInitVideo p with
  | missized q => rw [hp] at h; exact answers_of_raise h
  | fields v =>
    rw [hp, execInitVideo, ← decodeInitVideo_length hp] at h
    exact answers_of_check h fun hu h => answers_of_check h fun hg h => answers_of_check h fun hc h => by
      cases h; exact .inr (.initVideo hp hu hg (not_not.1 hc))

theorem execSendVideo_next (h : execSendVideo (decodeSendVideo p) s = .next t) : s.Answers .sendVideo p t := by
  cases hp : decodeSendVideo p with
  | missized q => rw [hp] at h; exact answers_of_raise h
  | fields v =>
    rw [hp] at h
    refine answers_of_check h fun hv h => ?_
    have hv : s.vidInit = true := (Bool.not_eq_false _).mp hv
    split at h
    · exact answers_of_raise h
    · next hf =>
      obtain ⟨r, hr, rfl⟩ | ⟨c, -, rfl⟩ := finishVideo_next h
      · exact .inr (.sendVideo (decodeSendVideo_length hp) hv (.inl ⟨hf, hr⟩))
      · exact .inl ⟨c, rfl⟩
    · next hf =>
      obtain ⟨r, hr, rfl⟩ | ⟨c, -, rfl⟩ := finishVideo_next h
      · exact .inr (.sendVideo (decodeSendVideo_length hp) hv (.inr ⟨hf, hr⟩))
      · exact .inl ⟨c, rfl⟩

theorem execAudioFrame_next (h : execAudioFrame (decodeAudioFrame p) s = .next t) : s.Answers .audioFrame p t := by
  cases hp : decodeAudioFrame p with
  | missized q => rw [hp] at h; exact answers_of_raise h
  | fields v =>
    rw [hp, execAudioFrame, ← decodeAudioFrame_length hp] at h
    exact answers_of_check h fun ha h => answers_of_check h fun hn h => by
      cases h; exact .inr (.audioFrame hp ha (not_not.1 hn))

theorem execAudioSilent_next (h : execAudioSilent (decodeAudioSilent p) s = .next t) : s.Answers .audioSilent p t := by
  cases hp : decodeAudioSilent p with
  | missized q => rw [hp] at h; exact answers_of_raise h
  | fields v =>
    rw [hp, execAudioSilent, ← decodeAudioSilent_length hp] at h
    exact answers_of_check h fun ha h => by cases h; exact .inr (.audioSilent hp ha)

theorem execSetMode_next (h : execSetMode p s = .next t) : s.Answers .setMode p t :=
  answers_of_check h fun hp h => by
    have hp : p.length = 6 := not_not.1 hp
    rw [← hp] at h; cases h
    exact .inr (.setMode hp)

theorem execPalette_next (h : execPalette (decodePalette p) s = .next t) : s.Answers .palette p t := by
  cases hp : decodePalette p with
  | missized q => rw [hp] at h; exact answers_of_raise h
  | fields v =>
    rw [hp, execPalette, ← decodePalette_length hp] at h
    exact answers_of_check h fun ht h => answers_of_check h fun hs h => by
      cases h; exact .inr (.palette hp (Nat.le_of_not_lt ht) (Nat.le_of_not_lt hs))

/-- Everything a record of an opcode can answer with a next state. -/
theorem exec_instr_next (h : exec (op.instr p) s = .next t) : s.Answers op p t := by
  cases op with
  | endStream => exact execEndStream_next h
  | endPacket => exact execEndPacket_next h
  | timer => exact execTimer_next h
  | initAudio => exact execInitAudio_next h
  | startAudio => exact execStartAudio_next h
  | initVideo => exact execInitVideo_next h
  | frameDataV6 => cases h; exact .inr .frameDataV6
  | sendVideo => exact execSendVideo_next h
  | audioFrame => exact execAudioFrame_next h
  | audioSilent => exact execAudioSilent_next h
  | setMode => exact execSetMode_next h
  | palette => exact execPalette_next h
  | skipMap => cases h; exact .inr .skipMap
  | decodingMap => cases h; exact .inr .decodingMap
  | frameDataV10 => cases h; exact .inr .frameDataV10

/-! ### What the completions share -/

theorem State.Completes.src_eq (h : s.Completes op p t) : t.src = s.src := by cases h <;> rfl
theorem State.Completes.loaded_eq (h : s.Completes op p t) : t.loaded = s.loaded := by cases h <;> rfl
theorem State.Completes.err_eq (h : s.Completes op p t) : t.err = s.err := by cases h <;> rfl

/-- R22, R38: only SendVideo changes the SendVideo in progress, and it leaves none. -/
theorem State.Completes.recon_eq (h : s.Completes op p t) : t.recon = s.recon ∨ t.recon = none := by
  cases h with
  | sendVideo => exact .inr rfl
  | _ => exact .inl rfl

/-- R23: End is the one opcode that writes DONE. -/
theorem State.Completes.done_eq (h : s.Completes op p t) : t.done = (s.done || op == .endStream) := by
  cases h with
  | endStream => exact (Bool.or_true _).symm
  | _ => exact (Bool.or_false _).symm

/-- R133, R135: CUR moves past the record, and past the packet header after an EndPacket. -/
theorem State.Completes.cur_eq (h : s.Completes op p t) :
    t.cur = s.cur + 4 + p.length + if op = .endPacket then 4 else 0 := by
  cases h with
  | sendVideo hp => rw [hp]; rfl
  | _ => rfl

/-! ### The step -/

theorem State.enabled_iff : s.enabled = true ↔ s.loaded = true ∧ s.done = false ∧ s.err = none := by
  simp [State.enabled, and_assoc]

theorem enabled_of_step_next (h : step s = .next t) : s.enabled = true := by
  unfold step at h
  split at h
  · assumption
  · cases h

/-- Everything a step from outside a SendVideo can do. -/
theorem step_record_next (hr : s.recon = none) (h : step s = .next t) :
    (∃ c, t = s.raise c) ∨ ∃ op p, s.Holds op p ∧ s.Completes op p t := by
  have hs : stepRecord s = .next t := by
    simpa only [step, if_pos (enabled_of_step_next h), hr] using h
  unfold stepRecord at hs
  split at hs
  · next i hi =>
    obtain ⟨len, tag, rfl⟩ | ⟨op, p, hh, rfl⟩ := fetchRecord_inv hi
    · cases hs; exact .inl ⟨_, rfl⟩
    · exact (exec_instr_next hs).imp_right fun hc => ⟨op, p, hh, hc⟩
  · cases hs; exact .inl ⟨_, rfl⟩

end

/-- Settles O10, by the framing that all completions share. -/
theorem stepMovesPastItsRecord : Obligations.StepMovesPastItsRecord := by
  intro s t hr h herr
  obtain ⟨c, rfl⟩ | ⟨op, p, hh, hc⟩ := step_record_next hr h
  · cases herr
  · have htag : u16BE s.source (s.cur + 2) = 0x0100 ↔ op = .endPacket :=
      hh.tag ▸ Opcode.tag_eq_iff (b := .endPacket)
    rw [hc.cur_eq, hh.length]
    simp only [htag]

/-- Settles O12: a fault discards the SendVideo in progress, and no completion leaves one behind. -/
theorem stepLeavesNoTransients : Obligations.StepLeavesNoTransients := by
  intro s t hr h
  obtain ⟨c, rfl⟩ | ⟨op, p, -, hc⟩ := step_record_next hr h
  · rfl
  · exact hc.recon_eq.elim (·.trans hr) id

/-- Settles O13: a fault latches ERR and leaves the rest, and of the completions only End writes DONE. -/
theorem onlyEndSetsDone : Obligations.OnlyEndSetsDone := by
  intro s t hr h
  obtain ⟨-, hdone, herr⟩ := State.enabled_iff.1 (enabled_of_step_next h)
  refine ⟨hdone, herr, ?_⟩
  obtain ⟨c, rfl⟩ | ⟨op, p, hh, hc⟩ := step_record_next hr h
  · exact ⟨rfl, rfl, by simp [hdone]⟩
  · have htag : u16BE s.source (s.cur + 2) = 0x0000 ↔ op = .endStream :=
      hh.tag ▸ Opcode.tag_eq_iff (b := .endStream)
    refine ⟨hc.src_eq, hc.loaded_eq, ?_⟩
    rw [htag, hc.done_eq, hc.err_eq]
    simp [hdone, herr]

end Sys2Proof.Machine
end

section
/-! The invariant (O14, O15, O16): it holds at reset, and a step keeps it. A sub-step of a SendVideo and a whole reconstruction
keep the same facts about the SendVideo in progress, `Recon.Sound`, whatever block and pass it is at, because a write that
completes keeps the form and the length of its surface. -/

namespace Sys2Proof.Machine

/-- Settles O14, row by row of R40. -/
theorem resetValues : Obligations.ResetValues := by
  refine ⟨rfl, rfl, rfl, rfl, rfl, rfl, rfl, rfl, rfl, rfl, rfl, rfl, rfl, rfl, rfl, rfl, rfl, rfl, rfl, rfl, rfl, rfl, rfl,
    rfl, rfl, rfl, ?_, fun a ha => ?_, fun k => ?_, rfl, rfl⟩
  · simp [State.reset, Config.palBytes]
  · simp [State.reset, Config.palBytes, ha]
  · cases k <;> rfl

/-- Settles O15: nothing is configured at reset, so what is left is the empty surfaces and the size of PAL. -/
theorem resetMeetsInvariant : Obligations.ResetMeetsInvariant where
  vidOn := nofun
  vidOff _ := ⟨rfl, rfl⟩
  fit k := ⟨State.reset_surf_wf k, by cases k <;> rfl⟩
  timer := nofun
  audOn := nofun
  audOff _ := rfl
  pal := by simp [State.reset, Config.palBytes]
  buffers := by simp [State.reset]
  fmt _ := rfl
  frameNo := le_refl _
  cursor := nofun
  recon := nofun

/-! ### The copies keep surfaces that fit -/

theorem Res.All.mono {α : Type} {P Q : α → Prop} {x : Res α} (hx : Res.All P x) (h : ∀ a, P a → Q a) : Res.All Q x :=
  fun a ha => h a (hx a ha)

theorem Res.all_foldlM {α β : Type} {P : β → Prop} {f : β → α → Res β} (hf : ∀ b a, P b → Res.All P (f b a))
    (xs : List α) {b : β} (hb : P b) : Res.All P (xs.foldlM f b) := by
  induction xs generalizing b with
  | nil => exact Res.all_ok hb
  | cons a xs ih =>
    rw [List.foldlM_cons]
    exact (hf b a hb).bind fun _ => ih

section
variable {s : State} {x : Surfaces} {n : Nat}

/-- A write that completes keeps the surface's form and length. -/
theorem write_set_fit (hx : x.fit n) (dst : Role) (a : Nat) (vs : List Byte) :
    Res.All (fun y : Surfaces => y.fit n) ((x.get dst).write a vs >>= fun m => .ok (x.set m dst)) := by
  obtain ⟨hwf, hlen⟩ := hx dst
  refine Res.All.bind (P := fun m => m.wf ∧ m.len = n) (fun m hm => ?_) fun m ⟨hm, hl⟩ =>
    Res.all_ok (Surfaces.fit_set hx hm hl dst)
  obtain ⟨hin, rfl⟩ := Memory.write_inv hm
  exact ⟨putCells_wf vs hwf hin, hlen⟩

theorem copyRows_fit (hx : x.fit n) (dst src : Role) (w a d : Nat) :
    Res.All (fun y : Surfaces => y.fit n) (copyRows dst src w a d x) :=
  Res.all_foldlM (fun _ _ hy => Res.all_bind fun _ => write_set_fit hy _ _ _) _ hx

theorem copyLiteralBlock_fit (hx : x.fit n) (dst : Role) (b lc : Nat) :
    Res.All (fun y : Surfaces => y.fit n) (copyLiteralBlock s dst b lc x) :=
  Res.all_ite nofun (Res.all_foldlM (fun _ _ hy => write_set_fit hy _ _ _) _ hx)

theorem copyBlockWithOffset_fit (hx : x.fit n) (dst src : Role) (b : Nat) (off : Int) :
    Res.All (fun y : Surfaces => y.fit n) (copyBlockWithOffset s dst src b off x) :=
  Res.all_ite (copyRows_fit hx _ _ _ _ _) nofun

theorem copySurface_fit (hx : x.fit s.pixels) (dst src : Role) :
    Res.All (fun y : Surfaces => y.fit s.pixels) (copySurface s dst src x) := by
  rw [copySurface_ok hx]
  exact Res.all_ok (Surfaces.fit_set hx (hx src).1 (hx src).2 dst)

theorem preStep6_fit (hx : x.fit s.pixels) (fn : Int) :
    Res.All (fun y : Surfaces => y.fit s.pixels) (preStep6 s fn x) := by
  have second (y : Surfaces) (hy : y.fit s.pixels) : Res.All (fun y : Surfaces => y.fit s.pixels)
      (if fn > 0 then copySurface s .r0 .f y else .ok y) :=
    Res.all_ite (copySurface_fit hy _ _) (Res.all_ok hy)
  exact Res.all_ite ((copySurface_fit hx _ _).bind second) (second x hx)

end

/-- R153: the surfaces InitVideo makes have the W*H bytes of its grid. -/
theorem zeroSurfaces_fit_pixels (w h : Word16) : (zeroSurfaces w h).fit (8 * w.toNat * (8 * h.toNat)) := by
  rw [show 8 * w.toNat * (8 * h.toNat) = 64 * w.toNat * h.toNat by ring]
  exact zeroSurfaces_fit w h

theorem one_le_toNat {w : Word16} (h : w ≠ 0) : 1 ≤ w.toNat :=
  Nat.one_le_iff_ne_zero.2 fun h0 => h (BitVec.eq_of_toNat_eq h0)

/-! ### What every block of a SendVideo keeps -/

/-- The part of `Recon.Inv` that does not speak of the block: the working copies fit (R221), the frame number is the next
one (R220), SK_BITS is at most 16 (R210). -/
structure Recon.Sound (s : State) (r : Recon) : Prop where
  fit : r.surf.fit s.pixels
  fn : r.fn = s.frameNo + 1
  bits : r.skip.bits ≤ 16

theorem Recon.Inv.sound {s : State} {r : Recon} (h : r.Inv s) : r.Sound s := ⟨h.fit, h.fn, h.bits⟩

section
variable {s : State} {r : Recon}

theorem openRecon_sound {x : Surfaces} (hx : x.fit s.pixels) (p : Pass) (mc lc : Nat) :
    (s.openRecon p mc lc x).Sound s := ⟨hx, rfl, Nat.zero_le _⟩

theorem Recon.Sound.enter (h : r.Sound s) (p : Pass) (mc : Nat) : (r.enter p mc).Sound s := ⟨h.fit, h.fn, Nat.zero_le _⟩

theorem Recon.Sound.nextWord (h : r.Sound s) : r.nextWord.Sound s := ⟨h.fit, h.fn, h.bits⟩

theorem Recon.Sound.swapRefs (h : r.Sound s) : Recon.Sound s { r with surf := swapRefs r.surf } :=
  ⟨swapRefs_fit h.fit, h.fn, h.bits⟩

theorem f6Lit_sound (h : r.Sound s) : Res.All (Recon.Sound s) (f6Lit s r) :=
  (copyLiteralBlock_fit h.fit _ _ _).bind fun _ hy => Res.all_ok ⟨hy, h.fn, h.bits⟩

theorem f6Ref1_sound (h : r.Sound s) : Res.All (Recon.Sound s) (f6Ref1 s r) :=
  Res.all_ite ((copyBlockWithOffset_fit h.fit _ _ _ _).bind fun _ hy => Res.all_ok ⟨hy, h.fn, h.bits⟩)
    (Res.all_ok h.nextWord)

theorem f6Inter_sound (h : r.Sound s) (v : BitVec 15) : Res.All (Recon.Sound s) (f6Inter v s r) :=
  Res.all_ite ((copyBlockWithOffset_fit h.fit _ _ _ _).bind fun _ hy => Res.all_ok ⟨hy, h.fn, h.bits⟩)
    (Res.all_ok h.nextWord)

theorem f6Intra_sound (h : r.Sound s) (v : BitVec 15) : Res.All (Recon.Sound s) (f6Intra v s r) :=
  (copyBlockWithOffset_fit h.fit _ _ _ _).bind fun _ hy => Res.all_ok ⟨hy, h.fn, h.bits⟩

theorem f10Lit_sound (h : r.Sound s) : Res.All (Recon.Sound s) (f10Lit s r) :=
  (copyLiteralBlock_fit h.fit _ _ _).bind fun _ hy => Res.all_ok ⟨hy, h.fn, h.bits⟩

theorem f10Cur_sound (h : r.Sound s) (v : BitVec 15) : Res.All (Recon.Sound s) (f10Cur v s r) :=
  (copyBlockWithOffset_fit h.fit _ _ _ _).bind fun _ hy => Res.all_ok ⟨hy, h.fn, h.bits⟩

theorem f10Prev_sound (h : r.Sound s) (v : BitVec 15) : Res.All (Recon.Sound s) (f10Prev v s r) :=
  (copyBlockWithOffset_fit h.fit _ _ _ _).bind fun _ hy => Res.all_ok ⟨hy, h.fn, h.bits⟩

theorem takeFlag_sound (h : r.Sound s) : Res.All (Recon.Sound s) (takeFlag s r) :=
  Res.All.bind (P := fun k => k.2.bits ≤ 16) (fun _ hk => SkipStream.next_bits h.bits hk) fun _ hk =>
    Res.all_ok ⟨h.fit, h.fn, hk⟩

theorem skipBlock_sound (h : r.Sound s) : Res.All (Recon.Sound s) (skipBlock s r) :=
  (takeFlag_sound h).bind fun _ h => Res.all_ok ⟨h.fit, h.fn, h.bits⟩

theorem showBlock_sound (h : r.Sound s) : Res.All (Recon.Sound s) (showBlock s r) :=
  (takeFlag_sound h).bind fun _ h =>
    (copyBlockWithOffset_fit h.fit _ _ _ _).bind fun _ hy => Res.all_ok ⟨hy, h.fn, h.bits⟩

theorem keepBlock_sound (h : r.Sound s) : Res.All (Recon.Sound s) (keepBlock s r) :=
  Res.all_ite (showBlock_sound h) ((takeFlag_sound h).bind fun _ h => Res.all_ok ⟨h.fit, h.fn, h.bits⟩)

theorem f6Block1_sound (h : r.Sound s) : Res.All (Recon.Sound s) (f6Block1 s r) :=
  Res.all_bind fun _ => Res.all_ite (f6Lit_sound h) (f6Ref1_sound h)

theorem f6Block2_sound (h : r.Sound s) : Res.All (Recon.Sound s) (f6Block2 s r) :=
  Res.all_bind fun _ => Res.all_ite (Res.all_ok h.nextWord) (Res.all_ite (f6Inter_sound h _) (f6Intra_sound h _))

theorem f10Word1_sound (h : r.Sound s) : Res.All (Recon.Sound s) (f10Word1 s r) :=
  Res.all_bind fun _ => Res.all_ite (f10Lit_sound h) (Res.all_ok h.nextWord)

theorem f10Word2_sound (h : r.Sound s) : Res.All (Recon.Sound s) (f10Word2 s r) :=
  Res.all_bind fun _ => Res.all_ite (Res.all_ok h.nextWord) (Res.all_ite (f10Prev_sound h _) (f10Cur_sound h _))

theorem f10Block1_sound (h : r.Sound s) : Res.All (Recon.Sound s) (f10Block1 s r) :=
  Res.all_bind fun _ => Res.all_ite (skipBlock_sound h) ((keepBlock_sound h).bind fun _ => f10Word1_sound)

theorem f10Block2_sound (h : r.Sound s) : Res.All (Recon.Sound s) (f10Block2 s r) :=
  Res.all_bind fun _ => Res.all_ite (skipBlock_sound h) ((keepBlock_sound h).bind fun _ => f10Word2_sound)

theorem f10Block3_sound (h : r.Sound s) : Res.All (Recon.Sound s) (f10Block3 s r) :=
  Res.all_bind fun _ => Res.all_ite (skipBlock_sound h) (showBlock_sound h)

theorem runPass_sound {block : Recon → Res Recon} (hblock : ∀ {r : Recon}, r.Sound s → Res.All (Recon.Sound s) (block r))
    (n : Nat) (h : r.Sound s) : Res.All (Recon.Sound s) (runPass block n r) :=
  fun _ => runPass_inv (Recon.Sound s) (fun _ r' hr hb => hblock hr r' hb) n h

theorem format6_sound (hs : s.surf.fit s.pixels) : Res.All (Recon.Sound s) (format6 s) :=
  ((preStep6_fit hs _).bind fun _ hx => Res.all_ok (openRecon_sound hx _ _ _)).bind fun _ h =>
    (runPass_sound f6Block1_sound _ h).bind fun _ h => runPass_sound f6Block2_sound _ (h.enter _ _)

theorem format10_sound (hs : s.surf.fit s.pixels) : Res.All (Recon.Sound s) (format10 s) :=
  (runPass_sound f10Block1_sound _ (openRecon_sound hs _ _ _)).bind fun _ h =>
    (runPass_sound f10Block2_sound _ (h.enter _ _)).bind fun _ h =>
      (runPass_sound f10Block3_sound _ (h.enter _ _)).bind fun _ h => Res.all_ok h.swapRefs

end

/-! ### The state's updates keep the invariant -/

section
variable {s t : State} {r : Recon}

theorem State.Inv.raise (hi : s.Inv) (c : ErrCode) : (s.raise c).Inv := { hi with recon := nofun }

/-- Outside a SendVideo there is nothing to say of one in progress. -/
theorem recon_of_none (hr : s.recon = none) {P : Recon → Prop} (r : Recon) (h : s.recon = some r) : P r := by
  cases hr.symm.trans h

/-- CUR may move past a record that lies in SRC. -/
theorem State.Inv.retire (hi : s.Inv) (hr : s.recon = none) {n : Nat} (hroom : s.cur + 4 + n ≤ s.source.length) :
    (s.retire n).Inv :=
  { hi with
    cursor := fun hl => ⟨by have := (hi.cursor hl).1; simp only [State.retire_cur]; omega, hroom⟩
    recon := recon_of_none hr }

theorem State.Inv.during (hi : s.Inv) (h : r.Inv s) : (s.during r).Inv :=
  { hi with
    recon := fun q hq => by cases hq; exact ⟨h.vid, h.loaded, h.fit, h.fn, h.block, h.bits, h.room⟩ }

theorem State.Inv.commit (hi : s.Inv) (h : r.Sound s) (hroom : s.cur + 10 ≤ s.source.length) : (s.commit r).Inv :=
  { hi with
    fit := h.fit
    frameNo := by have := hi.frameNo; rw [State.commit_frameNo, h.fn]; omega
    cursor := fun hl => ⟨by have := (hi.cursor hl).1; simp only [State.commit_cur]; omega, hroom⟩
    recon := nofun }

/-- What completes outside a SendVideo keeps the invariant: CUR moves inside SRC, and the opcode's own fields meet the clause
that speaks of them by its guards. -/
theorem State.Completes.inv {op : Opcode} {p : List Byte} (h : s.Completes op p t) (hh : s.Holds op p) (hi : s.Inv)
    (hr : s.recon = none) : t.Inv := by
  have hu : (s.retire p.length).Inv := hi.retire hr hh.room
  have hp : p.length ≤ 65535 := hh.length_le
  obtain ⟨hfd, hsm, hdm⟩ := hi.buffers
  cases h with
  | endStream => exact { hu with recon := recon_of_none hr }
  | endPacket room =>
    exact { hi with
      cursor := fun hl => ⟨Nat.le_add_right_of_le (Nat.le_add_right_of_le (hi.cursor hl).1), room⟩
      recon := recon_of_none hr }
  | timer _ _ product => exact { hu with timer := fun _ => product, recon := recon_of_none hr }
  | initAudio _ _ flags => exact { hu with audOn := fun _ => flags, audOff := nofun, recon := recon_of_none hr }
  | startAudio => exact hu
  | initVideo _ _ grid color =>
    obtain ⟨hw, hv⟩ := not_or.1 grid
    exact { hu with
      vidOn := fun _ => ⟨one_le_toNat hw, one_le_toNat hv, color⟩
      vidOff := nofun
      fit := zeroSurfaces_fit_pixels _ _
      recon := recon_of_none hr }
  | frameDataV6 => exact { hu with buffers := ⟨hp, hsm, hdm⟩, fmt := nofun, recon := recon_of_none hr }
  | sendVideo h6 _ frame =>
    have hsound : Recon.Sound s _ := frame.elim (fun h => format6_sound hi.fit _ h.2) fun h => format10_sound hi.fit _ h.2
    have hroom := hh.room
    exact hi.commit hsound (by omega)
  | audioFrame _ aud _ => exact { hu with audOff := fun h => absurd h aud, recon := recon_of_none hr }
  | audioSilent _ aud => exact { hu with audOff := fun h => absurd h aud, recon := recon_of_none hr }
  | setMode => exact hu
  | palette => exact { hu with pal := (storeChannels_length _ _ _).trans hi.pal, recon := recon_of_none hr }
  | skipMap => exact { hu with buffers := ⟨hfd, hp, hdm⟩, recon := recon_of_none hr }
  | decodingMap => exact { hu with buffers := ⟨hfd, hsm, hp⟩, recon := recon_of_none hr }
  | frameDataV10 => exact { hu with buffers := ⟨hp, hsm, hdm⟩, fmt := nofun, recon := recon_of_none hr }

/-! ### Inside a SendVideo -/

theorem State.during_of_recon (hr : s.recon = some r) : s.during r = s := by
  cases s; cases hr; rfl

/-- Everything a sub-step can answer with a next state. -/
theorem blockAnswer_next {x : Res Recon} (h : blockAnswer s x = .next t) :
    (∃ r', x = .ok r' ∧ t = s.during r') ∨ ∃ c, t = s.raise c := by
  unfold blockAnswer at h
  split at h
  · next r' => cases h; exact .inl ⟨r', rfl, rfl⟩
  · next c => cases h; exact .inr ⟨c, rfl⟩
  · cases h

/-- The sub-step of `r` answers an effect that is sound and leaves the block index in the grid or just past it. -/
def SubStepKeeps (s : State) (r : Recon) : Prop :=
  ∃ x, step (s.during r) = blockAnswer s x ∧ Res.All (Recon.Sound s) x ∧ Res.All (fun r' => r'.b ≤ s.blocks) x

/-- A sub-step that finishes its block. -/
theorem subStepKeeps_of_moves {x : Res Recon} {p : Pass} (hb : r.b < s.blocks)
    (hstep : step (s.during r) = blockAnswer s x) (hsound : Res.All (Recon.Sound s) x)
    (hmoves : Res.All (Recon.At p (r.b + 1)) x) : SubStepKeeps s r :=
  ⟨x, hstep, hsound, hmoves.mono fun _ ⟨_, hb', _⟩ => hb' ▸ hb⟩

/-- The sub-step that reads a skip flag in pass 1 or 2 of format 10: it finishes the block, or stays at it (R212). -/
theorem subStepKeeps_skipFlag (he : s.enabled = true) (hb : r.b < s.blocks) (h : r.Sound s)
    (hp : r.pass = .f10Pass1 ∨ r.pass = .f10Pass2) (hw : r.wordDue = false) : SubStepKeeps s r := by
  have hp3 : r.pass ≠ .f10Pass3 := by rcases hp with hp | hp <;> simp [hp]
  refine ⟨_, step_skipFlag he hb hp hw, ?_, ?_⟩
  · exact Res.all_bind fun _ => Res.all_ite (keepBlock_sound h) (skipBlock_sound h)
  · exact Res.all_bind fun _ => Res.all_ite
      ((keepBlock_stays s rfl hp3).mono fun _ ⟨_, hb', _⟩ => hb' ▸ hb.le)
      ((skipBlock_moves s rfl).mono fun _ ⟨_, hb', _⟩ => hb' ▸ hb)

/-- Every sub-step at a block of the grid, by its pass and by what the pass reads next. -/
theorem subStepKeeps_of_lt (he : s.enabled = true) (hb : r.b < s.blocks) (h : r.Sound s) : SubStepKeeps s r := by
  cases hp : r.pass with
  | f6Pass1 => exact subStepKeeps_of_moves hb (step_f6Pass1 he hb hp) (f6Block1_sound h) (f6Block1_moves s hp)
  | f6Pass2 => exact subStepKeeps_of_moves hb (step_f6Pass2 he hb hp) (f6Block2_sound h) (f6Block2_moves s hp)
  | f10Pass1 =>
    cases hw : r.wordDue with
    | false => exact subStepKeeps_skipFlag he hb h (.inl hp) hw
    | true => exact subStepKeeps_of_moves hb (step_f10Word1 he hb hp hw) (f10Word1_sound h) (f10Word1_moves s hp)
  | f10Pass2 =>
    cases hw : r.wordDue with
    | false => exact subStepKeeps_skipFlag he hb h (.inr hp) hw
    | true => exact subStepKeeps_of_moves hb (step_f10Word2 he hb hp hw) (f10Word2_sound h) (f10Word2_moves s hp)
  | f10Pass3 => exact subStepKeeps_of_moves hb (step_f10Pass3 he hb hp) (f10Block3_sound h) (f10Block3_moves s hp)

/-- Past the last block of a pass: the next pass starts at block 0, or the SendVideo commits. -/
theorem State.Inv.turnPass (hi : s.Inv) (h : r.Inv s) : (turnPass s r).Inv := by
  have enter (p : Pass) (mc : Nat) : (s.during (r.enter p mc)).Inv :=
    hi.during ⟨h.vid, h.loaded, h.fit, h.fn, Nat.zero_le _, Nat.zero_le _, h.room⟩
  unfold Machine.turnPass
  split
  · exact enter _ _
  · exact hi.commit h.sound h.room
  · exact enter _ _
  · exact enter _ _
  · exact hi.commit h.sound.swapRefs h.room

/-- A sub-step of a SendVideo keeps the invariant. -/
theorem step_during_inv (hi : s.Inv) (hr : s.recon = some r) (h : step s = .next t) : t.Inv := by
  have he := enabled_of_step_next h
  have hrec : r.Inv s := hi.recon r hr
  have hd := State.during_of_recon hr
  rcases Nat.lt_or_eq_of_le hrec.block with hb | hb
  · obtain ⟨x, hx, hsound, hle⟩ := subStepKeeps_of_lt he hb hrec.sound
    rw [← hd, hx] at h
    obtain ⟨r', rfl, rfl⟩ | ⟨c, rfl⟩ := blockAnswer_next h
    · obtain ⟨hfit, hfn, hbits⟩ := hsound r' rfl
      exact hi.during ⟨hrec.vid, hrec.loaded, hfit, hfn, hle r' rfl, hbits, hrec.room⟩
    · exact hi.raise c
  · have ht := step_turn he hb
    rw [hd, h] at ht
    cases ht
    exact hi.turnPass hrec

end

/-- Settles O16: inside a SendVideo by its sub-steps, outside one by the fault or the completion of its record. -/
theorem stepKeepsInvariant : Obligations.StepKeepsInvariant := by
  intro s t hi h
  cases hr : s.recon with
  | some r => exact step_during_inv hi hr h
  | none =>
    obtain ⟨c, rfl⟩ | ⟨op, p, hh, hc⟩ := step_record_next hr h
    · exact hi.raise c
    · exact hc.inv hh hi hr

end Sys2Proof.Machine
end

section
/-! The encoding (O1 to O4). Every payload format reads and writes inversely (`IsFormat`), so the encoding of `op.instr p` is
the record of `op` with payload `p`, and every well-formed record instruction is such an `op.instr p`; a map word and a skip
flag are read and written field by field (R110, R112). -/

namespace Sys2Proof

/-! ### Byte splits and map words -/

@[simp] theorem bytesLE_u16 (lo hi : Byte) : bytesLE (u16 lo hi) = [lo, hi] := by
  rw [bytesLE, lo8_u16, hi8_u16]

@[simp] theorem bytesBE_u16 (lo hi : Byte) : bytesBE (u16 lo hi) = [hi, lo] := by
  rw [bytesBE, lo8_u16, hi8_u16]

@[simp] theorem bytesLE32_u32 (a b c d : Byte) : bytesLE32 (u32 a b c d) = [a, b, c, d] := by
  obtain ⟨ha, hb, hc, hd⟩ := byte32_u32 a b c d
  rw [bytesLE32, ha, hb, hc, hd]

@[simp] theorem sourceSelect_mapWordOf (s : Bool) (v : BitVec 15) : sourceSelect (mapWordOf s v) = s :=
  (mapWordOf_fields s v).1

@[simp] theorem biasedOffset_mapWordOf (s : Bool) (v : BitVec 15) : biasedOffset (mapWordOf s v) = v :=
  (mapWordOf_fields s v).2

/-- R110: the zero word is the one whose two fields are 0. -/
@[simp] theorem mapWordOf_eq_zero_iff {s : Bool} {v : BitVec 15} :
    mapWordOf s v = 0#16 ↔ s = false ∧ v = 0#15 := by
  constructor
  · intro h
    obtain ⟨hs, hv⟩ := mapWordOf_fields s v
    rw [h] at hs hv
    exact ⟨hs.symm, hv.symm⟩
  · rintro ⟨rfl, rfl⟩; rfl

/-! ### Payload formats -/

@[simp] theorem Payload.bytes_fields {α : Type} (f : α → List Byte) (v : α) : (Payload.fields v).bytes f = f v := rfl

@[simp] theorem Payload.bytes_missized {α : Type} (f : α → List Byte) (q : List Byte) :
    (Payload.missized q).bytes f = q := rfl

/-- A payload format: `d` reads fields exactly from the payloads whose length is a `size`, and `f` writes what `d` reads. -/
structure IsFormat {α : Type} (d : List Byte → Payload α) (f : α → List Byte) (size : Nat → Prop) : Prop where
  bytes_decode : ∀ p, (d p).bytes f = p
  decode_bytes : ∀ v, d (f v) = .fields v
  size_bytes : ∀ v, size (f v).length
  fields_of_size : ∀ p, size p.length → ∃ v, d p = .fields v

section
variable {α : Type} {d : List Byte → Payload α} {f : α → List Byte} {size : Nat → Prop}

theorem IsFormat.eq_of_decode_fields (h : IsFormat d f size) {p : List Byte} {v : α} (hd : d p = .fields v) : f v = p := by
  simpa only [hd, Payload.bytes_fields] using h.bytes_decode p

theorem IsFormat.missized_inv (h : IsFormat d f size) {p q : List Byte} (hd : d p = .missized q) :
    q = p ∧ ¬size p.length := by
  refine ⟨by simpa only [hd, Payload.bytes_missized] using h.bytes_decode p, fun hp => ?_⟩
  obtain ⟨v, hv⟩ := h.fields_of_size p hp
  cases hd.symm.trans hv

theorem IsFormat.decode_of_not_size (h : IsFormat d f size) {q : List Byte} (hq : ¬size q.length) :
    d q = .missized q := by
  cases hd : d q with
  | fields v => exact absurd (h.eq_of_decode_fields hd ▸ h.size_bytes v) hq
  | missized q' => exact congrArg Payload.missized (h.missized_inv hd).1

/-- A payload term is read back from its bytes, unless it is called missized and is not. -/
theorem IsFormat.decode_bytes_of_wf (h : IsFormat d f size) {p : Payload α}
    (hp : ∀ q, p = .missized q → ¬size q.length) : d (p.bytes f) = p := by
  cases p with
  | fields v => exact h.decode_bytes v
  | missized q => exact h.decode_of_not_size (hp q rfl)

/-- R138: with a fixed size, a payload read is well formed exactly when its length fits payloadLength. -/
theorem IsFormat.wfFixed_decode {n : Nat} (h : IsFormat d f (· = n)) (hn : n ≤ 65535) (p : List Byte) :
    (d p).wfFixed n = payloadFits p.length := by
  cases hd : d p with
  | fields v =>
    have hp : p.length = n := h.eq_of_decode_fields hd ▸ h.size_bytes v
    simp [Payload.wfFixed, payloadFits, hp, hn]
  | missized q =>
    obtain ⟨rfl, hp⟩ := h.missized_inv hd
    simp [Payload.wfFixed, hp]

theorem IsFormat.decode_bytes_of_wfFixed {n : Nat} (h : IsFormat d f (· = n)) {p : Payload α} (hp : p.wfFixed n = true) :
    d (p.bytes f) = p :=
  h.decode_bytes_of_wf fun q hq => by
    subst hq
    obtain ⟨hlen, -⟩ := Bool.and_eq_true_iff.1 hp
    exact bne_iff_ne.1 hlen

/-- R102, R105: the same with a tail, whose length is bounded only by payloadLength. -/
theorem IsFormat.wfTail_decode {n : Nat} {tail : α → Nat} (h : IsFormat d f (n ≤ ·))
    (ht : ∀ v, (f v).length = n + tail v) (hn : n ≤ 65535) (p : List Byte) :
    (d p).wfTail n tail = payloadFits p.length := by
  cases hd : d p with
  | fields v => rw [← h.eq_of_decode_fields hd, ht]; rfl
  | missized q =>
    obtain ⟨rfl, hp⟩ := h.missized_inv hd
    have hlt : q.length < n := Nat.lt_of_not_le hp
    simp [Payload.wfTail, payloadFits, hlt, Nat.le_trans hlt.le hn]

theorem IsFormat.decode_bytes_of_wfTail {n : Nat} {tail : α → Nat} (h : IsFormat d f (n ≤ ·)) {p : Payload α}
    (hp : p.wfTail n tail = true) : d (p.bytes f) = p :=
  h.decode_bytes_of_wf fun q hq => by
    subst hq
    exact Nat.not_le_of_lt (of_decide_eq_true hp)

end

theorem decodeTimer_isFormat : IsFormat decodeTimer TimerFields.bytes (· = 6) where
  bytes_decode p := by
    unfold decodeTimer
    split
    · simp [TimerFields.bytes]
    · rfl
  decode_bytes v := by simp [TimerFields.bytes, bytesLE32, bytesLE, decodeTimer, u32_bytes, u16_bytes]
  size_bytes _ := rfl
  fields_of_size
    | [_, _, _, _, _, _], _ => ⟨_, rfl⟩

theorem decodeInitAudio_isFormat : IsFormat decodeInitAudio InitAudioFields.bytes (· = 8) where
  bytes_decode p := by
    unfold decodeInitAudio
    split
    · simp [InitAudioFields.bytes]
    · rfl
  decode_bytes v := by simp [InitAudioFields.bytes, bytesLE, decodeInitAudio, u16_bytes]
  size_bytes _ := rfl
  fields_of_size
    | [_, _, _, _, _, _, _, _], _ => ⟨_, rfl⟩

theorem decodeInitVideo_isFormat : IsFormat decodeInitVideo InitVideoFields.bytes (· = 8) where
  bytes_decode p := by
    unfold decodeInitVideo
    split
    · simp [InitVideoFields.bytes]
    · rfl
  decode_bytes v := by simp [InitVideoFields.bytes, bytesLE, decodeInitVideo, u16_bytes]
  size_bytes _ := rfl
  fields_of_size
    | [_, _, _, _, _, _, _, _], _ => ⟨_, rfl⟩

theorem decodeSendVideo_isFormat : IsFormat decodeSendVideo SendVideoFields.bytes (· = 6) where
  bytes_decode p := by
    unfold decodeSendVideo
    split
    · simp [SendVideoFields.bytes]
    · rfl
  decode_bytes v := by simp [SendVideoFields.bytes, bytesLE, decodeSendVideo, u16_bytes]
  size_bytes _ := rfl
  fields_of_size
    | [_, _, _, _, _, _], _ => ⟨_, rfl⟩

theorem AudioFrameFields.length_bytes (v : AudioFrameFields) : v.bytes.length = 6 + v.pcm.length := by
  simp only [AudioFrameFields.bytes, List.length_append, bytesLE_length]

theorem decodeAudioFrame_isFormat : IsFormat decodeAudioFrame AudioFrameFields.bytes (6 ≤ ·) where
  bytes_decode p := by
    unfold decodeAudioFrame
    split
    · simp [AudioFrameFields.bytes]
    · rfl
  decode_bytes v := by simp [AudioFrameFields.bytes, bytesLE, decodeAudioFrame, u16_bytes]
  size_bytes v := by rw [AudioFrameFields.length_bytes]; exact Nat.le_add_right _ _
  fields_of_size
    | _ :: _ :: _ :: _ :: _ :: _ :: _, _ => ⟨_, rfl⟩

theorem decodeAudioSilent_isFormat : IsFormat decodeAudioSilent AudioSilentFields.bytes (· = 6) where
  bytes_decode p := by
    unfold decodeAudioSilent
    split
    · simp [AudioSilentFields.bytes]
    · rfl
  decode_bytes v := by simp [AudioSilentFields.bytes, bytesLE, decodeAudioSilent, u16_bytes]
  size_bytes _ := rfl
  fields_of_size
    | [_, _, _, _, _, _], _ => ⟨_, rfl⟩

theorem PaletteFields.length_bytes (v : PaletteFields) : v.bytes.length = 4 + v.body.length := by
  simp only [PaletteFields.bytes, List.length_append, bytesLE_length]

theorem decodePalette_isFormat : IsFormat decodePalette PaletteFields.bytes (4 ≤ ·) where
  bytes_decode p := by
    unfold decodePalette
    split
    · simp [PaletteFields.bytes]
    · rfl
  decode_bytes v := by simp [PaletteFields.bytes, bytesLE, decodePalette, u16_bytes]
  size_bytes v := by rw [PaletteFields.length_bytes]; exact Nat.le_add_right _ _
  fields_of_size
    | _ :: _ :: _ :: _ :: _, _ => ⟨_, rfl⟩

/-! ### Records -/

@[simp] theorem Opcode.instr_context (op : Opcode) (p : List Byte) : (op.instr p).context = .stream := by
  cases op <;> rfl

/-- R92: whatever the fields of a record say, it is well formed when payloadLength can say its length. -/
theorem Opcode.instr_wf (op : Opcode) (p : List Byte) : (op.instr p).wf = payloadFits p.length := by
  cases op with
  | timer => exact decodeTimer_isFormat.wfFixed_decode (by decide) p
  | initAudio => exact decodeInitAudio_isFormat.wfFixed_decode (by decide) p
  | initVideo => exact decodeInitVideo_isFormat.wfFixed_decode (by decide) p
  | sendVideo => exact decodeSendVideo_isFormat.wfFixed_decode (by decide) p
  | audioFrame => exact decodeAudioFrame_isFormat.wfTail_decode AudioFrameFields.length_bytes (by decide) p
  | audioSilent => exact decodeAudioSilent_isFormat.wfFixed_decode (by decide) p
  | palette => exact decodePalette_isFormat.wfTail_decode PaletteFields.length_bytes (by decide) p
  | _ => rfl

/-- R92: the encoding of what is read from a payload is the record of that payload. -/
theorem Opcode.encode_instr (op : Opcode) (p : List Byte) : encode (op.instr p) = encodeRecord op p := by
  cases op with
  | timer => exact congrArg (encodeRecord .timer) (decodeTimer_isFormat.bytes_decode p)
  | initAudio => exact congrArg (encodeRecord .initAudio) (decodeInitAudio_isFormat.bytes_decode p)
  | initVideo => exact congrArg (encodeRecord .initVideo) (decodeInitVideo_isFormat.bytes_decode p)
  | sendVideo => exact congrArg (encodeRecord .sendVideo) (decodeSendVideo_isFormat.bytes_decode p)
  | audioFrame => exact congrArg (encodeRecord .audioFrame) (decodeAudioFrame_isFormat.bytes_decode p)
  | audioSilent => exact congrArg (encodeRecord .audioSilent) (decodeAudioSilent_isFormat.bytes_decode p)
  | palette => exact congrArg (encodeRecord .palette) (decodePalette_isFormat.bytes_decode p)
  | _ => rfl

/-- A well-formed record instruction is the illegal row, or what an opcode reads from some payload. -/
theorem Instr.eq_illegal_or_instr {i : Instr} (hc : i.context = .stream) (hw : i.wf = true) :
    (∃ len tag, i = .illegal len tag) ∨ ∃ op p, i = Opcode.instr op p := by
  cases i with
  | illegal len tag => exact .inl ⟨len, tag, rfl⟩
  | endStream p => exact .inr ⟨.endStream, p, rfl⟩
  | endPacket p => exact .inr ⟨.endPacket, p, rfl⟩
  | timer p => exact .inr ⟨.timer, _, congrArg _ (decodeTimer_isFormat.decode_bytes_of_wfFixed hw).symm⟩
  | initAudio p => exact .inr ⟨.initAudio, _, congrArg _ (decodeInitAudio_isFormat.decode_bytes_of_wfFixed hw).symm⟩
  | startAudio p => exact .inr ⟨.startAudio, p, rfl⟩
  | initVideo p => exact .inr ⟨.initVideo, _, congrArg _ (decodeInitVideo_isFormat.decode_bytes_of_wfFixed hw).symm⟩
  | frameDataV6 p => exact .inr ⟨.frameDataV6, p, rfl⟩
  | sendVideo p => exact .inr ⟨.sendVideo, _, congrArg _ (decodeSendVideo_isFormat.decode_bytes_of_wfFixed hw).symm⟩
  | audioFrame p => exact .inr ⟨.audioFrame, _, congrArg _ (decodeAudioFrame_isFormat.decode_bytes_of_wfTail hw).symm⟩
  | audioSilent p =>
    exact .inr ⟨.audioSilent, _, congrArg _ (decodeAudioSilent_isFormat.decode_bytes_of_wfFixed hw).symm⟩
  | setMode p => exact .inr ⟨.setMode, p, rfl⟩
  | palette p => exact .inr ⟨.palette, _, congrArg _ (decodePalette_isFormat.decode_bytes_of_wfTail hw).symm⟩
  | skipMap p => exact .inr ⟨.skipMap, p, rfl⟩
  | decodingMap p => exact .inr ⟨.decodingMap, p, rfl⟩
  | frameDataV10 p => exact .inr ⟨.frameDataV10, p, rfl⟩
  | _ => cases hc

/-- R92, R132: a record is read back from its bytes, whatever follows them. -/
theorem decodeRecord_header_payload (op : Opcode) {p : List Byte} (hp : p.length ≤ 65535) (rest : List Byte) :
    decodeRecord (bytesLE (BitVec.ofNat 16 p.length) ++ bytesBE op.tag ++ p ++ rest) = .ok (op.instr p) := by
  have hlen := u16_length hp
  have h := decodeRecord_ok (rest := p ++ rest) (op := op) (by rw [u16_bytes, Opcode.ofTag_tag])
    (by rw [hlen, List.length_append]; omega)
  rw [hlen, List.take_left] at h
  simpa [bytesLE, bytesBE] using h

/-- R115, R136: so is an illegal tag. -/
theorem decodeRecord_header_illegal {tag : Word16} (ht : Opcode.ofTag tag = none) (len : Word16) (rest : List Byte) :
    decodeRecord (bytesLE len ++ bytesBE tag ++ rest) = .ok (.illegal len tag) := by
  have h := decodeRecord_illegal (l0 := lo8 len) (l1 := hi8 len) (rest := rest) (by rwa [← u16_bytes tag] at ht)
  rwa [u16_bytes, u16_bytes] at h

/-! ### Map words and flags -/

theorem decode_record_of_ne_stream {ctx : Context} (h : ctx ≠ .stream) (bytes : List Byte) :
    decode ctx (.record bytes) = .error .wrongStream := by
  cases ctx with
  | stream => exact absurd rfl h
  | _ => rfl

theorem decodeF6Pass2_true (v : BitVec 15) : decodeF6Pass2 (mapWordOf true v) = .f6Inter v := by
  simp [decodeF6Pass2]

theorem decodeF6Pass2_false {v : BitVec 15} (hv : v ≠ 0#15) : decodeF6Pass2 (mapWordOf false v) = .f6Intra v := by
  simp [decodeF6Pass2, hv]

theorem decodeF10Pass2_true (v : BitVec 15) : decodeF10Pass2 (mapWordOf true v) = .f10Prev v := by
  simp [decodeF10Pass2]

theorem decodeF10Pass2_false {v : BitVec 15} (hv : v ≠ 0#15) : decodeF10Pass2 (mapWordOf false v) = .f10Cur v := by
  simp [decodeF10Pass2, hv]

/-- R110, R112: a well-formed second-level instruction is read back from its bits. -/
theorem decode_encode_of_ne_stream {i : Instr} (hc : i.context ≠ .stream) (hw : i.wf = true) :
    decode i.context (encode i) = .ok i := by
  cases i with
  | f6Ref1 | f10Nop1 => exact congrArg Except.ok (if_neg (bne_iff_ne.1 hw))
  | f6Inter v => exact congrArg Except.ok (decodeF6Pass2_true v)
  | f6Intra => exact congrArg Except.ok (decodeF6Pass2_false (bne_iff_ne.1 hw))
  | f10Prev v => exact congrArg Except.ok (decodeF10Pass2_true v)
  | f10Cur => exact congrArg Except.ok (decodeF10Pass2_false (bne_iff_ne.1 hw))
  | f6Lit | f6Nop2 | f10Lit | f10Nop2 | skipS | skipN | f10Show => rfl
  | _ => exact absurd rfl hc

/-- The instruction `i` is well formed, belongs to the pass `ctx`, and is encoded as the map word `op`. -/
def Instr.Reads (i : Instr) (ctx : Context) (op : Word16) : Prop :=
  i.wf = true ∧ i.context = ctx ∧ encode i = .word op

/-- Pass 1 of either format tells the zero word from any other. -/
theorem reads_of_zero_or_word {ctx : Context} {zero : Instr} {other : Word16 → Instr} (hzero : zero.Reads ctx 0)
    (hother : ∀ op, op ≠ 0 → (other op).Reads ctx op) (op : Word16) :
    (if op = 0 then zero else other op).Reads ctx op := by
  split
  · next h => exact h ▸ hzero
  · next h => exact hother op h

/-- Pass 2 of either format tells the zero word, and then the source by bit 15. A non-zero word with bit 15 clear has a
non-zero offset. -/
theorem reads_of_zero_or_fields {ctx : Context} {zero : Instr} {bitSet bitClear : BitVec 15 → Instr} (hzero : zero.Reads ctx 0)
    (hset : ∀ v, (bitSet v).Reads ctx (mapWordOf true v))
    (hclear : ∀ v, v ≠ 0 → (bitClear v).Reads ctx (mapWordOf false v)) (op : Word16) :
    (if op = 0 then zero else if sourceSelect op then bitSet (biasedOffset op) else bitClear (biasedOffset op)).Reads ctx op := by
  have hop := mapWordOf_eq op
  split
  · next h => exact h ▸ hzero
  next h =>
  split
  · next hs =>
    rw [hs] at hop
    simpa only [hop] using hset (biasedOffset op)
  · next hs =>
    rw [(Bool.not_eq_true _).mp hs] at hop
    have hv : biasedOffset op ≠ 0 := fun hv => h (by rw [← hop, hv]; rfl)
    simpa only [hop] using hclear (biasedOffset op) hv

theorem decodeF6Pass1_reads (op : Word16) : (decodeF6Pass1 op).Reads .f6Pass1 op :=
  reads_of_zero_or_word (zero := .f6Lit) (other := .f6Ref1) ⟨rfl, rfl, rfl⟩ (fun _ h => ⟨bne_iff_ne.2 h, rfl, rfl⟩) op

theorem decodeF6Pass2_reads (op : Word16) : (decodeF6Pass2 op).Reads .f6Pass2 op :=
  reads_of_zero_or_fields (zero := .f6Nop2) (bitSet := .f6Inter) (bitClear := .f6Intra) ⟨rfl, rfl, rfl⟩
    (fun _ => ⟨rfl, rfl, rfl⟩) (fun _ hv => ⟨bne_iff_ne.2 hv, rfl, rfl⟩) op

theorem decodeF10Pass1_reads (op : Word16) : (decodeF10Pass1 op).Reads .f10Pass1 op :=
  reads_of_zero_or_word (zero := .f10Lit) (other := .f10Nop1) ⟨rfl, rfl, rfl⟩ (fun _ h => ⟨bne_iff_ne.2 h, rfl, rfl⟩) op

theorem decodeF10Pass2_reads (op : Word16) : (decodeF10Pass2 op).Reads .f10Pass2 op :=
  reads_of_zero_or_fields (zero := .f10Nop2) (bitSet := .f10Prev) (bitClear := .f10Cur) ⟨rfl, rfl, rfl⟩
    (fun _ => ⟨rfl, rfl, rfl⟩) (fun _ hv => ⟨bne_iff_ne.2 hv, rfl, rfl⟩) op

/-! ### The obligations -/

/-- Settles O1: a record through `op.instr p`, a map word or a flag through the decoder of its pass. -/
theorem decodeOfEncode : Obligations.DecodeOfEncode := by
  intro i rest hw
  by_cases hc : i.context = .stream
  · obtain ⟨len, tag, rfl⟩ | ⟨op, p, rfl⟩ := Instr.eq_illegal_or_instr hc hw
    · exact ⟨rfl, decodeRecord_header_illegal (Option.isNone_iff_eq_none.1 hw) len rest⟩
    · rw [Opcode.instr_wf] at hw
      rw [Opcode.encode_instr]
      exact ⟨hc, decodeRecord_header_payload op (of_decide_eq_true hw) rest⟩
  · have h := decode_encode_of_ne_stream hc hw
    cases he : encode i with
    | record bytes => rw [he, decode_record_of_ne_stream hc] at h; cases h
    | word op => rwa [he] at h
    | flag bit => rwa [he] at h

/-- Settles O2: the header says where the record ends, and `encode` writes the header and the payload again. -/
theorem encodeOfDecodedRecord : Obligations.EncodeOfDecodedRecord := by
  intro bytes i h
  obtain ⟨l0, l1, t0, t1, rest, rfl, ⟨ht, rfl⟩ | ⟨op, hop, hlen, rfl⟩⟩ := decodeRecord_inv h
  · exact ⟨Option.isNone_iff_eq_none.2 ht, rfl, [l0, l1, t0, t1], rest, rfl, by simp [encode]⟩
  · have hp : (rest.take (u16 l0 l1).toNat).length = (u16 l0 l1).toNat := List.length_take_of_le hlen
    refine ⟨?_, op.instr_context _, l0 :: l1 :: t0 :: t1 :: rest.take (u16 l0 l1).toNat, rest.drop (u16 l0 l1).toNat,
      by simp, ?_⟩
    · rw [Opcode.instr_wf, hp]
      exact decide_eq_true (Nat.le_of_lt_succ (u16 l0 l1).isLt)
    · rw [Opcode.encode_instr, encodeRecord, hp, BitVec.ofNat_toNat, BitVec.setWidth_eq, Opcode.tag_of_ofTag hop]
      simp

/-- Settles O3, pass by pass. -/
theorem everyMapWordAndFlagIsLegal : Obligations.EveryMapWordAndFlagIsLegal := by
  refine ⟨fun ctx op hctx => ?_, fun ctx bit hctx => ?_⟩
  · simp only [List.mem_cons, List.not_mem_nil, or_false] at hctx
    obtain rfl | rfl | rfl | rfl := hctx
    · exact ⟨_, rfl, decodeF6Pass1_reads op⟩
    · exact ⟨_, rfl, decodeF6Pass2_reads op⟩
    · exact ⟨_, rfl, decodeF10Pass1_reads op⟩
    · exact ⟨_, rfl, decodeF10Pass2_reads op⟩
  · simp only [List.mem_cons, List.not_mem_nil, or_false] at hctx
    obtain rfl | rfl := hctx
    · exact ⟨decodeSkipFlag bit, rfl, by cases bit <;> rfl, by cases bit <;> rfl⟩
    · exact ⟨decodeShowFlag bit, rfl, by cases bit <;> rfl, by cases bit <;> rfl⟩

/-- Settles O4, by evaluating the decoder on each word. -/
theorem sampleWordsDecode : Obligations.SampleWordsDecode :=
  ⟨rfl, rfl, rfl, rfl, rfl, rfl, rfl⟩

end Sys2Proof
end

section
/-! The second-level instructions on the SendVideo in progress (O45, O48): each is an `onBlock` at the contexts that may read
it, and the two flags move the skip stream by one call. -/

namespace Sys2Proof.Machine

section
variable {s : State} {r : Recon} {k : Bool × SkipStream}

theorem takeFlag_ok (h : r.skip.next s.sm = .ok k) : takeFlag s r = .ok { r with skip := k.2 } := by
  rw [takeFlag, h, Res.ok_bind]

theorem skipBlock_ok (h : r.skip.next s.sm = .ok k) :
    skipBlock s r = .ok { r with b := r.b + 1, wordDue := false, skip := k.2 } := by
  rw [skipBlock, takeFlag_ok h, Res.ok_bind]; rfl

/-- R212: before pass 3. -/
theorem keepBlock_ok (hp : r.pass ≠ .f10Pass3) (h : r.skip.next s.sm = .ok k) :
    keepBlock s r = .ok { r with wordDue := true, skip := k.2 } := by
  rw [keepBlock, if_neg hp, takeFlag_ok h, Res.ok_bind]

end

/-- Every second-level instruction acts through `onBlock`, in the contexts that can be read as it. -/
theorem exec_eq_onBlock {i : Instr} (h : i.context ≠ .stream) :
    ∃ ctx op, (∀ s, exec i s = onBlock ctx op s) ∧ ∀ c, c ∈ ctx ↔ i.readAs c := by
  cases i with
  | f6Nop2 | f10Nop1 | f10Nop2 =>
    exact ⟨_, fun _ r => .ok r.nextWord, fun _ => rfl, fun c => by simp [Instr.readAs, Instr.context]⟩
  | f6Lit | f6Ref1 | f6Inter | f6Intra | f10Lit | f10Cur | f10Prev | f10Show | skipS | skipN =>
    exact ⟨_, _, fun _ => rfl, fun c => by simp [Instr.readAs, Instr.context]⟩
  | _ => exact absurd rfl h

/-- Settles O48: `onBlock` refuses outside its contexts, and those are what the instruction can be read as. -/
theorem blockInstructionsNeedTheirPass : Obligations.BlockInstructionsNeedTheirPass := by
  intro s i hi
  obtain ⟨ctx, op, hexec, hctx⟩ := exec_eq_onBlock hi
  rw [hexec, onBlock_refused]
  simp only [hctx]

/-- Settles O45: the flag is taken from the skip stream, at a block whose pass reads a flag next. -/
theorem skipFlagsComplete : Obligations.SkipFlagsComplete := by
  intro s r k hr hb hk
  refine ⟨fun ⟨hp, hw⟩ => ?_, fun hp => ?_⟩
  · have hp3 : r.pass ≠ .f10Pass3 := by rcases hp with hp | hp <;> simp [hp]
    have hc : r.context ∈ [Context.skipFlag, .showFlag] := by rcases hp with hp | hp <;> simp [Recon.context, hp, hw]
    refine ⟨?_, onBlock_ok hr hc hb (keepBlock_ok hp3 hk)⟩
    rw [hw]
    exact onBlock_ok hr hc hb (skipBlock_ok hk)
  · exact onBlock_ok hr (by simp [Recon.context, hp]) hb (skipBlock_ok hk)

end Sys2Proof.Machine
end

section
/-! Stream framing (O5, O7, O8, O9, O18 to O21). Outside a SendVideo an enabled step is `stepRecord`, so each statement about
a step says what `fetchRecord` makes of the bytes at CUR: checks 1 to 3 of R132, in that order. -/

namespace Sys2Proof

/-- R115: the illegal tags are those that no opcode has. -/
theorem Opcode.ofTag_eq_none_iff {tag : Word16} : Opcode.ofTag tag = none ↔ tag ∉ Opcode.all.map Opcode.tag := by
  simp only [Opcode.ofTag, List.find?_eq_none, List.mem_map, beq_iff_eq, not_exists, not_and]

/-- R132 check 1. -/
theorem decodeRecord_short_header {bytes : List Byte} (h : bytes.length < 4) :
    decodeRecord bytes = .error .shortHeader := by
  unfold decodeRecord
  split
  · simp only [List.length_cons] at h; omega
  · rfl

/-- R132 check 3. -/
theorem decodeRecord_short_payload {l0 l1 t0 t1 : Byte} {rest : List Byte} {op : Opcode}
    (ht : Opcode.ofTag (u16 t1 t0) = some op) (hl : rest.length < (u16 l0 l1).toNat) :
    decodeRecord (l0 :: l1 :: t0 :: t1 :: rest) = .error .shortPayload := by
  simp [decodeRecord, ht, hl]

/-- R138: the payload size of the nine fixed-size opcodes. -/
def Opcode.fixedSize : Opcode → Option Nat
  | .endStream | .endPacket | .startAudio => some 0
  | .timer | .sendVideo | .audioSilent | .setMode => some 6
  | .initAudio | .initVideo => some 8
  | _ => none

end Sys2Proof

namespace Sys2Proof.Machine

section
variable {s : State}

/-! ### Faults and steps outside a SendVideo -/

/-- R288: with no SendVideo to discard, taking a fault changes ERR and nothing else. -/
theorem State.raise_of_outside (hr : s.recon = none) (c : ErrCode) : s.raise c = { s with err := some c } := by
  rw [State.raise, ← hr]; rfl

theorem raiseIn_of_outside (hr : s.recon = none) (c : ErrCode) : raiseIn s c = .next { s with err := some c } :=
  congrArg _ (State.raise_of_outside hr c)

theorem step_of_outside (he : s.enabled = true) (hr : s.recon = none) : step s = stepRecord s := by
  simp only [step, if_pos he, hr]

theorem step_of_fetchRecord_ok (he : s.enabled = true) (hr : s.recon = none) {i : Instr}
    (hf : fetchRecord s = .ok i) : step s = exec i s := by
  simp only [step_of_outside he hr, stepRecord, hf]

theorem step_of_fetchRecord_error (he : s.enabled = true) (hr : s.recon = none) {c : ErrCode}
    (hf : fetchRecord s = .error c) : step s = .next { s with err := some c } := by
  simp only [step_of_outside he hr, stepRecord, hf, raiseIn_of_outside hr]

/-! ### What is fetched at CUR -/

theorem fetchRecord_of_decode {i : Instr} (h : decodeRecord (s.source.drop s.cur) = .ok i) : fetchRecord s = .ok i := by
  simp only [fetchRecord, h]

/-- R61, R283: whatever is missing, the fault is Truncated. -/
theorem fetchRecord_of_decode_error {e : DecodeError} (h : decodeRecord (s.source.drop s.cur) = .error e) :
    fetchRecord s = .error .truncated := by
  simp only [fetchRecord, h]

theorem fetchRecord_short_header (h : s.source.length < s.cur + 4) : fetchRecord s = .error .truncated :=
  fetchRecord_of_decode_error (decodeRecord_short_header (by rw [List.length_drop]; omega))

/-- R92: a record header that lies in SRC, byte by byte, and what follows it. -/
theorem exists_header (h : s.cur + 4 ≤ s.source.length) :
    ∃ l0 l1 t0 t1 rest, s.source.drop s.cur = l0 :: l1 :: t0 :: t1 :: rest ∧
      u16LE s.source s.cur = u16 l0 l1 ∧ u16BE s.source (s.cur + 2) = u16 t1 t0 ∧
      s.source.length = s.cur + 4 + rest.length := by
  have hlen : (s.source.drop s.cur).length = s.source.length - s.cur := List.length_drop
  match hd : s.source.drop s.cur, hlen with
  | l0 :: l1 :: t0 :: t1 :: rest, hlen =>
    refine ⟨l0, l1, t0, t1, rest, rfl, ?_, ?_, by simp only [List.length_cons] at hlen; omega⟩
    · rw [u16LE, getD_of_drop_eq hd 1]
      exact congrArg (u16 · l1) (getD_of_drop_eq hd 0)
    · rw [u16BE, getD_of_drop_eq hd 2, Nat.add_assoc, getD_of_drop_eq hd 3]; rfl
  | [], hlen | [_], hlen | [_, _], hlen | [_, _, _], hlen => simp only [List.length_cons, List.length_nil] at hlen; omega

theorem fetchRecord_short_payload (h : s.cur + 4 ≤ s.source.length)
    (ht : (Opcode.ofTag (u16BE s.source (s.cur + 2))).isSome = true)
    (hl : s.source.length < s.cur + 4 + (u16LE s.source s.cur).toNat) : fetchRecord s = .error .truncated := by
  obtain ⟨l0, l1, t0, t1, rest, hd, hlen, htag, hroom⟩ := exists_header h
  obtain ⟨op, hop⟩ := Option.isSome_iff_exists.1 ht
  refine fetchRecord_of_decode_error (e := .shortPayload) ?_
  rw [hd]
  exact decodeRecord_short_payload (htag ▸ hop) (by rw [hlen] at hl; omega)

theorem fetchRecord_illegal (h : s.cur + 4 ≤ s.source.length)
    (ht : Opcode.ofTag (u16BE s.source (s.cur + 2)) = none) :
    fetchRecord s = .ok (.illegal (u16LE s.source s.cur) (u16BE s.source (s.cur + 2))) := by
  obtain ⟨l0, l1, t0, t1, rest, hd, hlen, htag, -⟩ := exists_header h
  refine fetchRecord_of_decode ?_
  rw [hd, hlen, htag]
  exact decodeRecord_illegal (htag ▸ ht)

/-! ### Payloads of another size (R138) -/

/-- A payload of another size is missized, or fails the opcode's own check of its length. -/
theorem exec_instr_of_wrong_size {op : Opcode} {size : Nat} (hop : op.fixedSize = some size) {p : List Byte}
    (hp : p.length ≠ size) (s : State) : exec (op.instr p) s = raiseIn s .badConfiguration := by
  cases op with
  | endStream | endPacket | startAudio | setMode => cases hop; exact if_pos hp
  | timer => cases hop; exact congrArg (execTimer · s) (decodeTimer_isFormat.decode_of_not_size hp)
  | initAudio => cases hop; exact congrArg (execInitAudio · s) (decodeInitAudio_isFormat.decode_of_not_size hp)
  | initVideo => cases hop; exact congrArg (execInitVideo · s) (decodeInitVideo_isFormat.decode_of_not_size hp)
  | sendVideo => cases hop; exact congrArg (execSendVideo · s) (decodeSendVideo_isFormat.decode_of_not_size hp)
  | audioSilent => cases hop; exact congrArg (execAudioSilent · s) (decodeAudioSilent_isFormat.decode_of_not_size hp)
  | frameDataV6 | audioFrame | palette | skipMap | decodingMap | frameDataV10 => cases hop

/-! ### The packet header after an EndPacket (R135) -/

theorem exec_endPacket_of_ok {t : State} (h : readPacketHeader s (s.cur + 4) = .ok t) :
    exec (.endPacket []) s = .next t := by
  simp [exec, execEndPacket, h]

theorem exec_endPacket_of_error {c : ErrCode} (h : readPacketHeader s (s.cur + 4) = .error c) :
    exec (.endPacket []) s = raiseIn s c := by
  simp [exec, execEndPacket, h]

end

/-! ### The obligations -/

/-- Settles O5: an enabled step outside a SendVideo fetches the record at CUR and executes it. -/
theorem stepRunsDecodedRecord : Obligations.StepRunsDecodedRecord :=
  fun _ _ hl hd he hr hi => step_of_fetchRecord_ok (State.enabled_iff.2 ⟨hl, hd, he⟩) hr (fetchRecord_of_decode hi)

/-- Settles O7, by the decoder's third check. -/
theorem stepReportsMissingPayload : Obligations.StepReportsMissingPayload :=
  fun _ hl hd he hr hh ht hp =>
    step_of_fetchRecord_error (State.enabled_iff.2 ⟨hl, hd, he⟩) hr (fetchRecord_short_payload hh ht hp)

/-- Settles O8: check 1 fails, or the fetch answers the illegal row, which always raises. -/
theorem stepReportsIllegalTag : Obligations.StepReportsIllegalTag := by
  intro s hl hd herr hr
  have he : s.enabled = true := State.enabled_iff.2 ⟨hl, hd, herr⟩
  refine ⟨fun hshort => step_of_fetchRecord_error he hr (fetchRecord_short_header hshort), fun hh ht => ?_⟩
  rw [step_of_fetchRecord_ok he hr (fetchRecord_illegal hh (Opcode.ofTag_eq_none_iff.2 ht))]
  exact raiseIn_of_outside hr _

/-- Settles O9: each of the three conditions fails the precondition of R132. -/
theorem disabledStepStops : Obligations.DisabledStepStops := by
  intro s hs
  refine if_neg fun he => ?_
  obtain ⟨hl, hd, herr⟩ := State.enabled_iff.1 he
  rcases hs with h | h | h
  · exact Bool.false_ne_true (h.symm.trans hl)
  · exact Bool.false_ne_true (hd.symm.trans h)
  · exact h herr

/-- Settles O18. -/
theorem endCompletes : Obligations.EndCompletes := fun _ => rfl

/-- Settles O19, by the two outcomes of reading a packet header (R131). -/
theorem endPacketCompletes : Obligations.EndPacketCompletes := by
  intro s
  rcases readPacketHeader_inv (s := s) (a := s.cur + 4) rfl with ⟨hroom, hx⟩ | ⟨hroom, hx⟩
  · exact ⟨fun _ => exec_endPacket_of_ok hx, fun h => by omega⟩
  · exact ⟨fun h => by omega, fun _ hr => (exec_endPacket_of_error hx).trans (raiseIn_of_outside hr _)⟩

/-- Settles O20. -/
theorem illegalRaisesUnknownOpcode : Obligations.IllegalRaisesUnknownOpcode :=
  fun _ _ _ hr => raiseIn_of_outside hr _

/-- Settles O21: the nine opcodes check their size, and the buffer opcodes check nothing. -/
theorem wrongFixedSizeRaises : Obligations.WrongFixedSizeRaises := by
  refine ⟨fun s op size p hr hop hp => ?_, fun s op p hop => ?_⟩
  · have hsize : op.fixedSize = some size := by
      simp only [List.mem_cons, Prod.mk.injEq, List.not_mem_nil, or_false] at hop
      rcases hop with ⟨rfl, rfl⟩ | ⟨rfl, rfl⟩ | ⟨rfl, rfl⟩ | ⟨rfl, rfl⟩ | ⟨rfl, rfl⟩ | ⟨rfl, rfl⟩ | ⟨rfl, rfl⟩ |
        ⟨rfl, rfl⟩ | ⟨rfl, rfl⟩ <;> rfl
    rw [exec_instr_of_wrong_size hsize hp, raiseIn_of_outside hr]
  · simp only [List.mem_cons, List.not_mem_nil, or_false] at hop
    rcases hop with rfl | rfl | rfl | rfl <;> exact ⟨_, rfl, rfl⟩

end Sys2Proof.Machine
end

section
/-! Progress (O17): from a state that meets the invariant, an enabled step answers a next state. A record's meaning stops only
where its reconstructor does, and a rule of a reconstructor stops only where an access leaves a surface; surfaces that fit the
grid, and a block index inside it, exclude that. -/

namespace Sys2Proof.Machine

/-! ### Rules that do not stop -/

/-- The rule completes or raises a fault code; it accesses no surface outside its length (R10). -/
def Res.Unstopped {α : Type} (x : Res α) : Prop := ∀ f, x ≠ .error (.stopped f)

theorem Res.unstopped_ok {α : Type} {a : α} : Res.Unstopped (.ok a) := nofun

theorem Res.unstopped_raised {α : Type} {c : ErrCode} : Res.Unstopped (raised c : Res α) := nofun

theorem Res.Unstopped.bind {α β : Type} {x : Res α} {f : α → Res β} (hx : Res.Unstopped x)
    (hf : ∀ a, x = .ok a → Res.Unstopped (f a)) : Res.Unstopped (x >>= f) := by
  cases x with
  | error e => cases e with
    | raised c => exact Res.unstopped_raised
    | stopped g => exact absurd rfl (hx g)
  | ok a => exact hf a rfl

theorem Res.unstopped_ite {α : Type} {c : Prop} [Decidable c] {x y : Res α} (hx : Res.Unstopped x)
    (hy : Res.Unstopped y) : Res.Unstopped (if c then x else y) := by
  split
  · exact hx
  · exact hy

section
variable {s : State} {x : Surfaces} {b : Nat}

/-! ### The copies and the reads -/

theorem copyLiteralBlock_unstopped (hx : x.fit s.pixels) (hb : b < s.blocks) (dst : Role) (lc : Nat) :
    Res.Unstopped (copyLiteralBlock s dst b lc x) := by
  rcases Nat.lt_or_ge s.fd.length (lc + 64) with hl | hl
  · rw [copyLiteralBlock_raise hl]; exact Res.unstopped_raised
  · obtain ⟨y, hy, -⟩ := copyLiteralBlock_ok (dst := dst) hx hb hl
    rw [hy]; exact Res.unstopped_ok

theorem copyBlockWithOffset_unstopped (hx : x.fit s.pixels) (hb : b < s.blocks) (dst src : Role) (off : Int) :
    Res.Unstopped (copyBlockWithOffset s dst src b off x) := by
  cases hin : s.inBounds (s.sourceAddr b off) with
  | false => rw [copyBlockWithOffset_raise hin]; exact Res.unstopped_raised
  | true =>
    obtain ⟨y, hy, -⟩ := copyBlockWithOffset_ok (dst := dst) (src := src) hx hb hin
    rw [hy]; exact Res.unstopped_ok

theorem copySurface_unstopped (hx : x.fit s.pixels) (dst src : Role) : Res.Unstopped (copySurface s dst src x) := by
  rw [copySurface_ok hx]; exact Res.unstopped_ok

theorem preStep6_unstopped (hx : x.fit s.pixels) (fn : Int) : Res.Unstopped (preStep6 s fn x) := by
  have second (y : Surfaces) (hy : y.fit s.pixels) : Res.Unstopped (if fn > 0 then copySurface s .r0 .f y else .ok y) :=
    Res.unstopped_ite (copySurface_unstopped hy _ _) Res.unstopped_ok
  exact Res.unstopped_ite ((copySurface_unstopped hx _ _).bind fun y hy => second y (copySurface_fit hx _ _ y hy))
    (second x hx)

theorem mapWordAt_unstopped (buf : List Byte) (mc : Nat) : Res.Unstopped (mapWordAt buf mc) :=
  Res.unstopped_ite Res.unstopped_raised Res.unstopped_ok

theorem SkipStream.next_unstopped (sm : List Byte) (k : SkipStream) : Res.Unstopped (k.next sm) :=
  Res.unstopped_ite (Res.unstopped_ite Res.unstopped_raised Res.unstopped_ok) Res.unstopped_ok

end

/-! ### The block operations, at a block of the grid -/

section
variable {s : State} {r : Recon}

theorem nextFlag_unstopped : Res.Unstopped (nextFlag s r) :=
  (SkipStream.next_unstopped _ _).bind fun _ _ => Res.unstopped_ok

theorem takeFlag_unstopped : Res.Unstopped (takeFlag s r) :=
  (SkipStream.next_unstopped _ _).bind fun _ _ => Res.unstopped_ok

theorem skipBlock_unstopped : Res.Unstopped (skipBlock s r) :=
  takeFlag_unstopped.bind fun _ _ => Res.unstopped_ok

variable (h : r.Sound s) (hb : r.b < s.blocks)
include h hb

theorem f6Lit_unstopped : Res.Unstopped (f6Lit s r) :=
  (copyLiteralBlock_unstopped h.fit hb _ _).bind fun _ _ => Res.unstopped_ok

theorem f6Ref1_unstopped : Res.Unstopped (f6Ref1 s r) :=
  Res.unstopped_ite ((copyBlockWithOffset_unstopped h.fit hb _ _ _).bind fun _ _ => Res.unstopped_ok) Res.unstopped_ok

theorem f6Inter_unstopped (v : BitVec 15) : Res.Unstopped (f6Inter v s r) :=
  Res.unstopped_ite ((copyBlockWithOffset_unstopped h.fit hb _ _ _).bind fun _ _ => Res.unstopped_ok) Res.unstopped_ok

theorem f6Intra_unstopped (v : BitVec 15) : Res.Unstopped (f6Intra v s r) :=
  (copyBlockWithOffset_unstopped h.fit hb _ _ _).bind fun _ _ => Res.unstopped_ok

theorem f10Lit_unstopped : Res.Unstopped (f10Lit s r) :=
  (copyLiteralBlock_unstopped h.fit hb _ _).bind fun _ _ => Res.unstopped_ok

theorem f10Cur_unstopped (v : BitVec 15) : Res.Unstopped (f10Cur v s r) :=
  (copyBlockWithOffset_unstopped h.fit hb _ _ _).bind fun _ _ => Res.unstopped_ok

theorem f10Prev_unstopped (v : BitVec 15) : Res.Unstopped (f10Prev v s r) :=
  (copyBlockWithOffset_unstopped h.fit hb _ _ _).bind fun _ _ => Res.unstopped_ok

theorem showBlock_unstopped : Res.Unstopped (showBlock s r) :=
  takeFlag_unstopped.bind fun r' hr' =>
    have hb' : r'.b = r.b := (takeFlag_stays s rfl r' hr').2
    (copyBlockWithOffset_unstopped (takeFlag_sound h r' hr').fit (hb' ▸ hb) _ _ _).bind fun _ _ => Res.unstopped_ok

theorem keepBlock_unstopped : Res.Unstopped (keepBlock s r) :=
  Res.unstopped_ite (showBlock_unstopped h hb) (takeFlag_unstopped.bind fun _ _ => Res.unstopped_ok)

theorem f6Block1_unstopped : Res.Unstopped (f6Block1 s r) :=
  (mapWordAt_unstopped _ _).bind fun _ _ => Res.unstopped_ite (f6Lit_unstopped h hb) (f6Ref1_unstopped h hb)

theorem f6Block2_unstopped : Res.Unstopped (f6Block2 s r) :=
  (mapWordAt_unstopped _ _).bind fun _ _ => Res.unstopped_ite Res.unstopped_ok
    (Res.unstopped_ite (f6Inter_unstopped h hb _) (f6Intra_unstopped h hb _))

theorem f10Word1_unstopped : Res.Unstopped (f10Word1 s r) :=
  (mapWordAt_unstopped _ _).bind fun _ _ => Res.unstopped_ite (f10Lit_unstopped h hb) Res.unstopped_ok

theorem f10Word2_unstopped : Res.Unstopped (f10Word2 s r) :=
  (mapWordAt_unstopped _ _).bind fun _ _ => Res.unstopped_ite Res.unstopped_ok
    (Res.unstopped_ite (f10Prev_unstopped h hb _) (f10Cur_unstopped h hb _))

/-- R212: a block that a pass before pass 3 keeps goes on to its map word, at the same block. -/
theorem keepBlock_bind_unstopped (hp : r.pass ≠ .f10Pass3) {word : Recon → Res Recon}
    (hword : ∀ r' : Recon, r'.Sound s → r'.b < s.blocks → Res.Unstopped (word r')) :
    Res.Unstopped (keepBlock s r >>= word) :=
  (keepBlock_unstopped h hb).bind fun r' hr' =>
    have hb' : r'.b = r.b := (keepBlock_stays s rfl hp r' hr').2.1
    hword r' (keepBlock_sound h r' hr') (hb' ▸ hb)

theorem f10Block1_unstopped (hp : r.pass = .f10Pass1) : Res.Unstopped (f10Block1 s r) :=
  (SkipStream.next_unstopped _ _).bind fun _ _ => Res.unstopped_ite skipBlock_unstopped
    (keepBlock_bind_unstopped h hb (by simp [hp]) fun _ => f10Word1_unstopped)

theorem f10Block2_unstopped (hp : r.pass = .f10Pass2) : Res.Unstopped (f10Block2 s r) :=
  (SkipStream.next_unstopped _ _).bind fun _ _ => Res.unstopped_ite skipBlock_unstopped
    (keepBlock_bind_unstopped h hb (by simp [hp]) fun _ => f10Word2_unstopped)

theorem f10Block3_unstopped : Res.Unstopped (f10Block3 s r) :=
  (SkipStream.next_unstopped _ _).bind fun _ _ => Res.unstopped_ite skipBlock_unstopped (showBlock_unstopped h hb)

end

/-! ### The passes and the two reconstructors -/

section
variable {s : State} {r : Recon}

theorem f10Block1_moves (hp : r.pass = .f10Pass1) : Res.All (Recon.At .f10Pass1 (r.b + 1)) (f10Block1 s r) :=
  Res.all_bind fun _ => Res.all_ite (skipBlock_moves s hp)
    ((keepBlock_stays s hp nofun).bind fun _ ⟨hp', hb', _⟩ => hb' ▸ f10Word1_moves s hp')

theorem f10Block2_moves (hp : r.pass = .f10Pass2) : Res.All (Recon.At .f10Pass2 (r.b + 1)) (f10Block2 s r) :=
  Res.all_bind fun _ => Res.all_ite (skipBlock_moves s hp)
    ((keepBlock_stays s hp nofun).bind fun _ ⟨hp', hb', _⟩ => hb' ▸ f10Word2_moves s hp')

/-- What a pass needs of the part `block` that it runs at each block: at a block of the grid it does not stop, and it goes on
to the next block with the facts about the SendVideo in progress kept. -/
structure PassBlock (s : State) (p : Pass) (block : Recon → Res Recon) : Prop where
  unstopped : ∀ {r : Recon}, r.Sound s → r.b < s.blocks → r.pass = p → Res.Unstopped (block r)
  sound : ∀ {r : Recon}, r.Sound s → Res.All (Recon.Sound s) (block r)
  moves : ∀ {r : Recon}, r.pass = p → Res.All (Recon.At p (r.b + 1)) (block r)

theorem passBlock_f6Block1 : PassBlock s .f6Pass1 (f6Block1 s) :=
  ⟨fun h hb _ => f6Block1_unstopped h hb, f6Block1_sound, f6Block1_moves s⟩

theorem passBlock_f6Block2 : PassBlock s .f6Pass2 (f6Block2 s) :=
  ⟨fun h hb _ => f6Block2_unstopped h hb, f6Block2_sound, f6Block2_moves s⟩

theorem passBlock_f10Block1 : PassBlock s .f10Pass1 (f10Block1 s) :=
  ⟨f10Block1_unstopped, f10Block1_sound, f10Block1_moves⟩

theorem passBlock_f10Block2 : PassBlock s .f10Pass2 (f10Block2 s) :=
  ⟨f10Block2_unstopped, f10Block2_sound, f10Block2_moves⟩

theorem passBlock_f10Block3 : PassBlock s .f10Pass3 (f10Block3 s) :=
  ⟨fun h hb _ => f10Block3_unstopped h hb, f10Block3_sound, f10Block3_moves s⟩

/-- R231: the rest of a pass does not stop, from the block it has come to. -/
theorem PassBlock.runPass_unstopped {p : Pass} {block : Recon → Res Recon} (hblock : PassBlock s p block) (n : Nat)
    {r : Recon} {b : Nat} (hn : b + n = s.blocks) (h : r.Sound s) (hr : r.At p b) : Res.Unstopped (runPass block n r) := by
  induction n generalizing r b with
  | zero => exact Res.unstopped_ok
  | succ n ih =>
    obtain ⟨hp, rfl, -⟩ := hr
    exact (hblock.unstopped h (by omega) hp).bind fun r' hr' =>
      ih (by omega) (hblock.sound h r' hr') (hblock.moves hp r' hr')

theorem openFormat6_unstopped (hs : s.surf.fit s.pixels) : Res.Unstopped (openFormat6 s) :=
  (preStep6_unstopped hs _).bind fun _ _ => Res.unstopped_ok

theorem openFormat6_sound (hs : s.surf.fit s.pixels) : Res.All (Recon.Sound s) (openFormat6 s) :=
  (preStep6_fit hs _).bind fun _ hx => Res.all_ok (openRecon_sound hx _ _ _)

theorem format6_unstopped (hs : s.surf.fit s.pixels) : Res.Unstopped (format6 s) :=
  (openFormat6_unstopped hs).bind fun r hr =>
    have h : r.Sound s := openFormat6_sound hs r hr
    (passBlock_f6Block1.runPass_unstopped _ (Nat.zero_add _) h (openFormat6_at hr)).bind fun r₁ hr₁ =>
      have h₁ : r₁.Sound s := runPass_sound f6Block1_sound _ h r₁ hr₁
      passBlock_f6Block2.runPass_unstopped _ (Nat.zero_add _) (h₁.enter _ _) (r₁.enter_at _ _)

theorem format10_unstopped (hs : s.surf.fit s.pixels) : Res.Unstopped (format10 s) :=
  have h : (openFormat10 s).Sound s := openRecon_sound hs _ _ _
  (passBlock_f10Block1.runPass_unstopped _ (Nat.zero_add _) h (openRecon_at _ _ _ _ _)).bind fun r₁ hr₁ =>
    have h₁ : r₁.Sound s := runPass_sound f10Block1_sound _ h r₁ hr₁
    (passBlock_f10Block2.runPass_unstopped _ (Nat.zero_add _) (h₁.enter _ _) (r₁.enter_at _ _)).bind fun r₂ hr₂ =>
      have h₂ : r₂.Sound s := runPass_sound f10Block2_sound _ (h₁.enter _ _) r₂ hr₂
      (passBlock_f10Block3.runPass_unstopped _ (Nat.zero_add _) (h₂.enter _ _) (r₂.enter_at _ _)).bind fun _ _ =>
        Res.unstopped_ok

end

/-! ### Records -/

/-- The machine has a next state; taking a fault is one (R288). -/
def IsNext (x : Answer) : Prop := ∃ t, x = .next t

section
variable {s : State}

theorem isNext_raise (s : State) (c : ErrCode) : IsNext (raiseIn s c) := ⟨_, rfl⟩

theorem isNext_check {a : Prop} [Decidable a] {c : ErrCode} {x : Answer} (hx : IsNext x) :
    IsNext (if a then raiseIn s c else x) := by
  split
  · exact isNext_raise s c
  · exact hx

theorem finishVideo_isNext {x : Res Recon} (hx : Res.Unstopped x) : IsNext (finishVideo s x) := by
  cases x with
  | ok r => exact ⟨_, rfl⟩
  | error e => cases e with
    | raised c => exact isNext_raise s c
    | stopped f => exact absurd rfl (hx f)

theorem execEndPacket_isNext (p : List Byte) : IsNext (execEndPacket p s) := by
  refine isNext_check ?_
  rcases readPacketHeader_inv (s := s) (a := s.cur + 4) rfl with ⟨-, hx⟩ | ⟨-, hx⟩ <;> rw [hx]
  · exact ⟨_, rfl⟩
  · exact isNext_raise s _

theorem execTimer_isNext (p : Payload TimerFields) : IsNext (execTimer p s) := by
  cases p with
  | missized q => exact isNext_raise s _
  | fields v => exact isNext_check (isNext_check ⟨_, rfl⟩)

theorem execInitAudio_isNext (p : Payload InitAudioFields) : IsNext (execInitAudio p s) := by
  cases p with
  | missized q => exact isNext_raise s _
  | fields v => exact isNext_check (isNext_check ⟨_, rfl⟩)

theorem execInitVideo_isNext (p : Payload InitVideoFields) : IsNext (execInitVideo p s) := by
  cases p with
  | missized q => exact isNext_raise s _
  | fields v => exact isNext_check (isNext_check (isNext_check ⟨_, rfl⟩))

theorem execAudioFrame_isNext (p : Payload AudioFrameFields) : IsNext (execAudioFrame p s) := by
  cases p with
  | missized q => exact isNext_raise s _
  | fields v => exact isNext_check (isNext_check ⟨_, rfl⟩)

theorem execAudioSilent_isNext (p : Payload AudioSilentFields) : IsNext (execAudioSilent p s) := by
  cases p with
  | missized q => exact isNext_raise s _
  | fields v => exact isNext_check ⟨_, rfl⟩

theorem execPalette_isNext (p : Payload PaletteFields) : IsNext (execPalette p s) := by
  cases p with
  | missized q => exact isNext_raise s _
  | fields v => exact isNext_check (isNext_check ⟨_, rfl⟩)

/-- R220: SendVideo, by its reconstructor. -/
theorem execSendVideo_isNext (hs : s.surf.fit s.pixels) (p : Payload SendVideoFields) : IsNext (execSendVideo p s) := by
  cases p with
  | missized q => exact isNext_raise s _
  | fields v =>
    refine isNext_check ?_
    cases s.fmt with
    | none => exact isNext_raise s _
    | v6 => exact finishVideo_isNext (format6_unstopped hs)
    | v10 => exact finishVideo_isNext (format10_unstopped hs)

theorem exec_instr_isNext (hs : s.surf.fit s.pixels) (op : Opcode) (p : List Byte) : IsNext (exec (op.instr p) s) := by
  cases op with
  | endStream | startAudio | setMode => exact isNext_check ⟨_, rfl⟩
  | frameDataV6 | skipMap | decodingMap | frameDataV10 => exact ⟨_, rfl⟩
  | endPacket => exact execEndPacket_isNext _
  | timer => exact execTimer_isNext _
  | initAudio => exact execInitAudio_isNext _
  | initVideo => exact execInitVideo_isNext _
  | sendVideo => exact execSendVideo_isNext hs _
  | audioFrame => exact execAudioFrame_isNext _
  | audioSilent => exact execAudioSilent_isNext _
  | palette => exact execPalette_isNext _

/-- R132: what is fetched is the illegal row or a record, and both answer. -/
theorem stepRecord_isNext (hs : s.surf.fit s.pixels) : IsNext (stepRecord s) := by
  unfold stepRecord
  split
  · next i hi =>
    obtain ⟨len, tag, rfl⟩ | ⟨op, p, -, rfl⟩ := fetchRecord_inv hi
    · exact isNext_raise s _
    · exact exec_instr_isNext hs op p
  · exact isNext_raise s _

end

/-! ### Inside a SendVideo -/

section
variable {s : State} {r : Recon}

theorem blockAnswer_isNext {x : Res Recon} (hx : Res.Unstopped x) : IsNext (blockAnswer s x) := by
  cases x with
  | ok r => exact ⟨_, rfl⟩
  | error e => cases e with
    | raised c => exact isNext_raise s c
    | stopped f => exact absurd rfl (hx f)

theorem step_skipFlag_isNext (he : s.enabled = true) (hb : r.b < s.blocks) (h : r.Sound s)
    (hp : r.pass = .f10Pass1 ∨ r.pass = .f10Pass2) (hw : r.wordDue = false) : IsNext (step (s.during r)) := by
  rw [step_skipFlag he hb hp hw]
  exact blockAnswer_isNext (nextFlag_unstopped.bind fun _ _ =>
    Res.unstopped_ite (keepBlock_unstopped h hb) skipBlock_unstopped)

/-- Every sub-step at a block of the grid, by its pass and by what the pass reads next. -/
theorem step_during_isNext_of_lt (he : s.enabled = true) (hb : r.b < s.blocks) (h : r.Sound s) :
    IsNext (step (s.during r)) := by
  cases hp : r.pass with
  | f6Pass1 => rw [step_f6Pass1 he hb hp]; exact blockAnswer_isNext (f6Block1_unstopped h hb)
  | f6Pass2 => rw [step_f6Pass2 he hb hp]; exact blockAnswer_isNext (f6Block2_unstopped h hb)
  | f10Pass1 =>
    cases hw : r.wordDue with
    | false => exact step_skipFlag_isNext he hb h (.inl hp) hw
    | true => rw [step_f10Word1 he hb hp hw]; exact blockAnswer_isNext (f10Word1_unstopped h hb)
  | f10Pass2 =>
    cases hw : r.wordDue with
    | false => exact step_skipFlag_isNext he hb h (.inr hp) hw
    | true => rw [step_f10Word2 he hb hp hw]; exact blockAnswer_isNext (f10Word2_unstopped h hb)
  | f10Pass3 => rw [step_f10Pass3 he hb hp]; exact blockAnswer_isNext (f10Block3_unstopped h hb)

/-- A sub-step of a SendVideo answers, at a block of the grid or just past it. -/
theorem step_during_isNext (he : s.enabled = true) (h : r.Inv s) : IsNext (step (s.during r)) := by
  rcases Nat.lt_or_eq_of_le h.block with hb | hb
  · exact step_during_isNext_of_lt he hb h.sound
  · exact ⟨_, step_turn he hb⟩

end

/-- Settles O17: outside a SendVideo by the record at CUR, inside one by its sub-steps. -/
theorem enabledStepAnswers : Obligations.EnabledStepAnswers := by
  intro s hi hl hd herr
  have he : s.enabled = true := State.enabled_iff.2 ⟨hl, hd, herr⟩
  cases hr : s.recon with
  | none => rw [step_of_outside he hr]; exact stepRecord_isNext hi.fit
  | some r => rw [← State.during_of_recon hr]; exact step_during_isNext he (hi.recon r hr)

end Sys2Proof.Machine
end

section
/-! The host commands (O53, O54, O58). Every step of a command runs in a state that is `Running`, and moves CUR by at least 4
inside SRC, so the steps are fewer than the bytes of SRC (R139) and the fuel of each loop outlasts them. -/

namespace Sys2Proof.Machine

/-! ### load, up to its loop -/

/-- R260: `load` with the source bound in the state `s`. -/
def loadFrom (s : State) : State × HostResult :=
  match headerCheck s with
  | .error c => (s.raise c, .fault c)
  | .ok t =>
    match readPacketHeader t t.cur with
    | .error c => (t.raise c, .fault c)
    | .ok u => loadLoop u.fuel { u with loaded := true }

/-- SRC is bound to `src` (R260). -/
def State.bindSource (s : State) (src : List Byte) : State := { s with src := some src }

theorem load_eq_loadFrom (src : List Byte) : load src = loadFrom (State.reset.bindSource src) := rfl

/-- The state after the header check (R130). -/
def State.afterHeader (s : State) : State := { s with cur := 25 }

/-- The state that the loop of `load` starts from: the first packet header is read, and the engine is loaded (R260). -/
def State.beforeDrain (s : State) : State :=
  { s with pktLen := u16LE s.source 25, pktKind := u16LE s.source 27, cur := 29, loaded := true }

section
variable {s : State}

/-! #### The header check (R130) -/

theorem headerCheck_of_short (h : s.source.length < 25) : headerCheck s = .error .truncated := if_pos h

theorem headerCheck_of_bad (hl : 25 ≤ s.source.length) (hh : s.source.take 25 ≠ headerBytes) :
    headerCheck s = .error .invalidSignature :=
  (if_neg (Nat.not_lt_of_le hl)).trans (if_pos hh)

theorem headerCheck_of_header (hl : 25 ≤ s.source.length) (hh : s.source.take 25 = headerBytes) :
    headerCheck s = .ok s.afterHeader :=
  (if_neg (Nat.not_lt_of_le hl)).trans (if_neg (not_not.2 hh))

/-! #### The cases of `load` (R260) -/

theorem loadFrom_of_short_header (h : s.source.length < 25) : loadFrom s = (s.raise .truncated, .fault .truncated) := by
  simp only [loadFrom, headerCheck_of_short h]

theorem loadFrom_of_bad_header (hl : 25 ≤ s.source.length) (hh : s.source.take 25 ≠ headerBytes) :
    loadFrom s = (s.raise .invalidSignature, .fault .invalidSignature) := by
  simp only [loadFrom, headerCheck_of_bad hl hh]

theorem loadFrom_of_short_packet (hl : 25 ≤ s.source.length) (hh : s.source.take 25 = headerBytes)
    (hs : s.source.length < 29) : loadFrom s = (s.afterHeader.raise .truncated, .fault .truncated) := by
  have hp : readPacketHeader s.afterHeader s.afterHeader.cur = .error .truncated := if_pos hs
  simp only [loadFrom, headerCheck_of_header hl hh, hp]

theorem loadFrom_of_packet (hh : s.source.take 25 = headerBytes) (hl : 29 ≤ s.source.length) :
    loadFrom s = loadLoop s.beforeDrain.fuel s.beforeDrain := by
  have hp : readPacketHeader s.afterHeader s.afterHeader.cur = .ok { s.beforeDrain with loaded := s.loaded } :=
    if_neg (Nat.not_lt_of_le hl)
  simp only [loadFrom, headerCheck_of_header (Nat.le_trans (by decide) hl) hh, hp]
  rfl

/-- With a video packet at hand, the loop of `load` is over. -/
theorem loadLoop_of_video (h : 3 ≤ s.pktKind.toNat) (n : Nat) : loadLoop (n + 1) s = (s, .ok) := by
  have hk : ¬(s.done = false ∧ s.pktKind.toNat < Config.kindVideo) := fun hk => Nat.not_lt_of_le h hk.2
  simp only [loadLoop, if_neg hk]

end

section
variable {s : State} (src : List Byte)

theorem State.bindSource_raise (hr : s.recon = none) (c : ErrCode) :
    (s.bindSource src).raise c = { s with src := some src, err := some c } :=
  State.raise_of_outside (s := s.bindSource src) hr c

theorem State.bindSource_afterHeader_raise (hr : s.recon = none) (c : ErrCode) :
    (s.bindSource src).afterHeader.raise c = { s with src := some src, cur := 25, err := some c } :=
  State.raise_of_outside (s := (s.bindSource src).afterHeader) hr c

theorem State.bindSource_beforeDrain : (s.bindSource src).beforeDrain = { s with
    src := some src, cur := 29, pktLen := u16LE src 25, pktKind := u16LE src 27, loaded := true } := rfl

end

/-- Settles O53: the two faults of the header check. -/
theorem loadChecksTheHeader : Obligations.LoadChecksTheHeader := by
  intro src
  refine ⟨fun hl => ?_, fun hl hh => ?_⟩
  · rw [load_eq_loadFrom, loadFrom_of_short_header (s := State.reset.bindSource src) hl,
      State.bindSource_raise src rfl]
  · rw [load_eq_loadFrom, loadFrom_of_bad_header (s := State.reset.bindSource src) hl hh,
      State.bindSource_raise src rfl]

/-- Settles O54: the packet header is missing, or a video packet's, with which the loop is over at once. -/
theorem loadReadsTheFirstPacketHeader : Obligations.LoadReadsTheFirstPacketHeader := by
  intro src hh
  have h25 : 25 ≤ src.length := by
    have hlen := congrArg List.length hh
    simp only [List.length_take, List.length_cons, List.length_nil] at hlen
    omega
  refine ⟨fun hl => ?_, fun hl hk => ?_⟩
  · rw [load_eq_loadFrom, loadFrom_of_short_packet (s := State.reset.bindSource src) h25 hh hl,
      State.bindSource_afterHeader_raise src rfl]
  · rw [load_eq_loadFrom, loadFrom_of_packet (s := State.reset.bindSource src) hh hl, State.fuel,
      loadLoop_of_video hk, State.bindSource_beforeDrain]

/-! ### Draining -/

/-- A state in which the loops of the commands run their steps, once DONE is seen to be 0. -/
structure State.Running (s : State) : Prop where
  inv : s.Inv
  outside : s.recon = none
  loaded : s.loaded = true
  err : s.err = none

section
variable {s t : State}

/-- R26: CUR is inside SRC. -/
theorem State.Running.cur_le (h : s.Running) : s.cur ≤ s.source.length := (h.inv.cursor h.loaded).2

/-- One step of a drain (R137): a fault, or a step that moves CUR past a record of SRC and sets DONE exactly at an End. -/
theorem State.Running.step (h : s.Running) (hd : s.done = false) : ∃ t, step s = .next t ∧ t.Inv ∧ t.recon = none ∧
    (t.err = none → t.Running ∧ t.source = s.source ∧ s.cur < t.cur ∧
      (t.done = true ↔ s.tagAt = Opcode.endStream.tag)) := by
  obtain ⟨t, ht⟩ := enabledStepAnswers s h.inv h.loaded hd h.err
  have hi : t.Inv := stepKeepsInvariant s t h.inv ht
  have hr : t.recon = none := stepLeavesNoTransients s t h.outside ht
  obtain ⟨-, -, hsrc, hl, hdone⟩ := onlyEndSetsDone s t h.outside ht
  refine ⟨t, ht, hi, hr, fun herr => ⟨⟨hi, hr, hl.trans h.loaded, herr⟩, congrArg (·.getD []) hsrc, ?_, ?_⟩⟩
  · rw [stepMovesPastItsRecord s t h.outside ht herr]; omega
  · rw [hdone, and_iff_left herr]; rfl

/-- How the drain of a packet from `s` ends when it is not stuck: past a record of the same SRC, or with a fault taken. -/
def Drain.Returns (s : State) : Drain → Prop
  | .packet t _ => t.Running ∧ t.source = s.source ∧ s.cur < t.cur
  | .raised t _ => t.Inv ∧ t.recon = none
  | .stuck _ => False

theorem Drain.Returns.of_step {d : Drain} (h : d.Returns t) (hsrc : t.source = s.source) (hcur : s.cur < t.cur) :
    d.Returns s := by
  cases d with
  | packet u sv =>
    obtain ⟨hu, hu', hlt⟩ := h
    exact ⟨hu, hu'.trans hsrc, hcur.trans hlt⟩
  | raised u c => exact h
  | stuck u => exact h

/-- R137, R139: a drain with fuel for the bytes left in SRC returns. -/
theorem drainPacket_returns (n : Nat) (sv : Bool) (h : s.Running) (hd : s.done = false)
    (hn : s.source.length < s.cur + n) : (drainPacket n sv s).Returns s := by
  induction n generalizing s sv with
  | zero => exact absurd h.cur_le (Nat.not_le_of_lt hn)
  | succ n ih =>
    obtain ⟨t, ht, hi, hr, hrun⟩ := h.step hd
    simp only [drainPacket, ht]
    cases herr : t.err with
    | some c => exact ⟨hi, hr⟩
    | none =>
      obtain ⟨hrun, hsrc, hcur, hdone⟩ := hrun herr
      dsimp only
      split
      · exact ⟨hrun, hsrc, hcur⟩
      · next htag =>
        have htd : t.done = false := Bool.eq_false_iff.2 fun hx => htag (.inl (hdone.1 hx))
        exact (ih _ hrun htd (by rw [hsrc]; omega)).of_step hsrc hcur

theorem drainPacket_fuel_returns (h : s.Running) (hd : s.done = false) : (drainPacket s.fuel false s).Returns s :=
  drainPacket_returns _ _ h hd (by rw [State.fuel]; omega)

/-! ### The loops and the commands -/

/-- The command returned, and left a state that the next command can be called in. -/
def Returned (x : State × HostResult) : Prop := x.2 ≠ .stuck ∧ x.1.Inv ∧ x.1.recon = none

theorem State.Running.returned (h : s.Running) {x : HostResult} (hx : x ≠ .stuck) : Returned (s, x) :=
  ⟨hx, h.inv, h.outside⟩

theorem returned_raise (hi : s.Inv) (c : ErrCode) : Returned (s.raise c, .fault c) := ⟨nofun, hi.raise c, rfl⟩

/-- The drain of one packet inside a loop: what follows a packet has a Running state, further on in SRC. -/
theorem returned_of_drain {d : Drain} (h : d.Returns s) {k : State → Bool → State × HostResult}
    (hk : ∀ t sv, t.Running → t.source = s.source → s.cur < t.cur → Returned (k t sv)) :
    Returned (match d with
      | .packet t sv => k t sv
      | .raised t c => (t, .fault c)
      | .stuck t => (t, .stuck)) := by
  cases d with
  | packet t sv =>
    obtain ⟨hrun, hsrc, hcur⟩ := h
    exact hk t sv hrun hsrc hcur
  | raised t c => exact ⟨nofun, h.1, h.2⟩
  | stuck t => exact h.elim

/-- R139, R260. -/
theorem loadLoop_returned (n : Nat) (h : s.Running) (hn : s.source.length < s.cur + n) : Returned (loadLoop n s) := by
  induction n generalizing s with
  | zero => exact absurd h.cur_le (Nat.not_le_of_lt hn)
  | succ n ih =>
    unfold loadLoop
    split
    · next hk =>
      exact returned_of_drain (drainPacket_fuel_returns h hk.1) (k := fun t _ => loadLoop n t)
        fun t _ hrun hsrc hcur => ih hrun (by rw [hsrc]; omega)
    · exact h.returned nofun

/-- R139, R261. -/
theorem advanceLoop_returned (n : Nat) (h : s.Running) (hn : s.source.length < s.cur + n) :
    Returned (advanceLoop n s) := by
  induction n generalizing s with
  | zero => exact absurd h.cur_le (Nat.not_le_of_lt hn)
  | succ n ih =>
    unfold advanceLoop
    split
    · exact h.returned nofun
    · next hd =>
      refine returned_of_drain (drainPacket_fuel_returns h (Bool.eq_false_iff.2 hd))
        (k := fun t sv => if sv then (t, .ok) else advanceLoop n t) fun t sv hrun hsrc hcur => ?_
      cases sv with
      | true => exact hrun.returned nofun
      | false => exact ih hrun (by rw [hsrc]; omega)

end

section
variable {s : State}

/-- Before `load` has loaded, nothing is said of CUR and SRC. -/
theorem State.Inv.bindSource (hi : s.Inv) (hr : s.recon = none) (hl : s.loaded = false) (src : List Byte) :
    (s.bindSource src).Inv :=
  { hi with cursor := fun h => absurd (hl.symm.trans h) Bool.false_ne_true, recon := recon_of_none hr }

theorem State.Inv.afterHeader (hi : s.Inv) (hr : s.recon = none) (hl : s.loaded = false) : s.afterHeader.Inv :=
  { hi with cursor := fun h => absurd (hl.symm.trans h) Bool.false_ne_true, recon := recon_of_none hr }

theorem State.Inv.beforeDrain_running (hi : s.Inv) (hr : s.recon = none) (herr : s.err = none)
    (hl : 29 ≤ s.source.length) : s.beforeDrain.Running where
  inv := { hi with cursor := fun _ => ⟨le_refl _, hl⟩, recon := recon_of_none hr }
  outside := hr
  loaded := rfl
  err := herr

theorem loadFrom_returned (hi : s.Inv) (hr : s.recon = none) (hl : s.loaded = false) (herr : s.err = none) :
    Returned (loadFrom s) := by
  rcases Nat.lt_or_ge s.source.length 25 with h25 | h25
  · rw [loadFrom_of_short_header h25]; exact returned_raise hi _
  by_cases hh : s.source.take 25 = headerBytes
  · rcases Nat.lt_or_ge s.source.length 29 with h29 | h29
    · rw [loadFrom_of_short_packet h25 hh h29]; exact returned_raise (hi.afterHeader hr hl) _
    · rw [loadFrom_of_packet hh h29]
      exact loadLoop_returned _ (hi.beforeDrain_running hr herr h29) (by rw [State.fuel]; omega)
  · rw [loadFrom_of_bad_header h25 hh]; exact returned_raise hi _

theorem load_returned (src : List Byte) : Returned (load src) :=
  loadFrom_returned (State.Inv.bindSource resetMeetsInvariant rfl rfl src) rfl rfl rfl

end

theorem advanceFrame_returned {s : State} (hi : s.Inv) (hr : s.recon = none) : Returned (advanceFrame s) := by
  unfold advanceFrame
  split
  · exact ⟨nofun, hi, hr⟩
  · next herr =>
    split
    · next hl => exact advanceLoop_returned _ ⟨hi, hr, hl, herr⟩ (by rw [State.fuel]; omega)
    · exact ⟨nofun, hi, hr⟩

/-- Settles O58, command by command; the two that run steps by induction on the fuel of their loops. -/
theorem hostCommandsReturn : Obligations.HostCommandsReturn := by
  intro s c hi hr
  cases c with
  | load source => exact load_returned source
  | advanceFrame => exact advanceFrame_returned hi hr
  | clearPaletteDirty => exact ⟨nofun, { hi with recon := recon_of_none hr }, hr⟩
  | destroy => exact ⟨nofun, resetMeetsInvariant, rfl⟩

end Sys2Proof.Machine
end

section
/-! The configuration opcodes (O22 to O27). Every check of one opcode raises the same fault, so its meaning is one test, the
disjunction of its checks: where it holds nothing but ERR changes, and where it fails the record completes. -/

namespace Sys2Proof.Machine

section
variable {s : State}

/-! ### The checks of each meaning as one test -/

/-- R150. -/
theorem execTimer_fields (v : TimerFields) : execTimer (.fields v) s =
    if s.tmrSet = true ∨ v.rate.toNat * v.subdiv.toNat = 0 then raiseIn s .badConfiguration
    else .next { s.retire 6 with tmrRate := v.rate, tmrSubdiv := v.subdiv, tmrSet := true } :=
  (ite_or ..).symm

/-- The low two bits of a 16-bit number, as a mask and as a remainder. -/
theorem and_three_eq_zero_iff (w : Word16) : w &&& 3#16 = 0 ↔ w.toNat % 4 = 0 := by
  have hmask : (w &&& 3#16).toNat = w.toNat % 4 := Nat.and_two_pow_sub_one_eq_mod w.toNat 2
  rw [← hmask, ← BitVec.toNat_inj]; rfl

/-- R151. -/
theorem execInitAudio_fields (v : InitAudioFields) : execInitAudio (.fields v) s =
    if s.audInit = true ∨ v.flags.toNat % 4 ≠ 0 then raiseIn s .badConfiguration
    else .next { s.retire 8 with
      audUnk := v.unk, audFlags := v.flags, audRate := v.sampleRate, audBufLen := v.bufLen, audInit := true } := by
  simp only [execInitAudio, ite_or, ne_eq, and_three_eq_zero_iff]

/-- R153. -/
theorem execInitVideo_fields (v : InitVideoFields) : execInitVideo (.fields v) s =
    if s.vidInit = true ∨ v.wBlocks = 0 ∨ v.hBlocks = 0 ∨ v.trueColor ≠ 0 then raiseIn s .badConfiguration
    else .next { s.retire 8 with
      wBlk := v.wBlocks, hBlk := v.hBlocks, vidCount := v.count, vidTrueColor := v.trueColor,
      surf := zeroSurfaces v.wBlocks v.hBlocks, vidInit := true } := by
  simp only [execInitVideo, ite_or]

/-- R155. -/
theorem execPalette_fields (v : PaletteFields) : execPalette (.fields v) s =
    if v.body.length < 3 * v.palCount.toNat ∨ 256 < v.palStart.toNat + v.palCount.toNat then raiseIn s .badConfiguration
    else .next { (s.retire (4 + v.body.length)).setPalDirty with
      pal := storeChannels s.pal (3 * v.palStart.toNat) (v.body.take (3 * v.palCount.toNat)) } :=
  (ite_or ..).symm

/-- R155: without the two palette operands the payload is missized. -/
theorem exec_palette_of_short {p : List Byte} (hp : p.length < 4) :
    exec (Opcode.palette.instr p) s = raiseIn s .badConfiguration :=
  congrArg (execPalette · s) (decodePalette_isFormat.decode_of_not_size (Nat.not_le_of_lt hp))

/-! ### What InitVideo and Palette store -/

theorem zeroSurfaces_byte (w h : Word16) (k : Role) (a : Nat) : ((zeroSurfaces w h).get k).byte a = 0#8 := by
  cases k <;> rfl

/-- R113: a stored byte has 8 bits, so the mask drops what the shift of a byte drops. -/
theorem expandChannel_eq (c : Byte) : expandChannel c = (c <<< 2) ||| c := by
  refine BitVec.eq_of_toNat_eq ?_
  have hmask : ∀ n, n &&& 0xFF = n % 2 ^ 8 := fun n => Nat.and_two_pow_sub_one_eq_mod n 8
  rw [expandChannel, hmask, BitVec.toNat_ofNat, Nat.mod_mod, Nat.or_mod_two_pow, Nat.mod_eq_of_lt c.isLt, BitVec.toNat_or,
    BitVec.toNat_shiftLeft]

/-- R155: the palette RAM after `n` source bytes of a payload that has them. -/
theorem storeChannels_take_getD {pal body : List Byte} {a n : Nat} (hn : n ≤ body.length) (ha : a + n ≤ pal.length)
    (x : Nat) : (storeChannels pal a (body.take n)).getD x 0 =
      if a ≤ x ∧ x < a + n then expandChannel (body.getD (x - a) 0) else pal.getD x 0 := by
  have hlen : (body.take n).length = n := List.length_take_of_le hn
  rw [storeChannels_getD _ _ _ _ (by omega), hlen]
  refine ite_congr rfl (fun hx => ?_) fun _ => rfl
  rw [List.getD_eq_getElem?_getD, List.getElem?_take_of_lt (by omega), ← List.getD_eq_getElem?_getD]

end

/-! ### The obligations -/

/-- Settles O26, by the palette byte at each address after the source bytes are stored. -/
theorem paletteCompletes : Obligations.PaletteCompletes := by
  intro s v hpal hbody hslots
  refine ⟨storeChannels s.pal (3 * v.palStart.toNat) (v.body.take (3 * v.palCount.toNat)), by rwa [storeChannels_length],
    fun a _ => ?_, ?_⟩
  · rw [storeChannels_take_getD hbody (by omega), Nat.mul_add, expandChannel_eq]
  · have hcur : s.cur + 4 + (4 + v.body.length) = s.cur + 8 + v.body.length := by omega
    rw [← hcur]
    exact (execPalette_fields v).trans (if_neg (by omega))

/-- Settles O22: neither check of R150 holds. -/
theorem timerCompletes : Obligations.TimerCompletes := fun _ v hset hproduct =>
  (execTimer_fields v).trans (if_neg (not_or.2 ⟨Bool.eq_false_iff.1 hset, hproduct⟩))

/-- Settles O23: neither check of R151 holds. -/
theorem initAudioCompletes : Obligations.InitAudioCompletes := fun _ v hinit hflags =>
  (execInitAudio_fields v).trans (if_neg (not_or.2 ⟨Bool.eq_false_iff.1 hinit, not_not.2 hflags⟩))

/-- Settles O24: no check of R153 holds, and the surfaces stored are those of zeros. -/
theorem initVideoCompletes : Obligations.InitVideoCompletes := by
  intro s v hinit hw hh hcolor
  refine ⟨zeroSurfaces v.wBlocks v.hBlocks, fun k => ?_, ?_⟩
  · obtain ⟨hwf, hlen⟩ := zeroSurfaces_fit v.wBlocks v.hBlocks k
    exact ⟨hwf, hlen, zeroSurfaces_byte _ _ k⟩
  · have hchecks := not_or.2 ⟨Bool.eq_false_iff.1 hinit, not_or.2 ⟨hw, not_or.2 ⟨hh, not_not.2 hcolor⟩⟩⟩
    rw [← hcolor]
    exact (execInitVideo_fields v).trans (if_neg hchecks)

/-- Settles O25: the only check of either record is that of its payload length. -/
theorem noOperationRecordsComplete : Obligations.NoOperationRecordsComplete :=
  ⟨fun _ => rfl, fun _ _ hp => if_neg (not_not.2 hp)⟩

/-- Settles O27: each check is a disjunct of its opcode's one test. -/
theorem configurationChecksRaise : Obligations.ConfigurationChecksRaise := by
  intro s hr
  rw [← raiseIn_of_outside hr]
  exact ⟨fun v h => (execTimer_fields v).trans (if_pos h), fun v h => (execInitAudio_fields v).trans (if_pos h),
    fun v h => (execInitVideo_fields v).trans (if_pos h), fun v h => (execPalette_fields v).trans (if_pos h),
    fun _ hp => exec_palette_of_short hp⟩

end Sys2Proof.Machine
end

section
/-! The buffer opcodes (O28). None of them checks anything (42_buffer_opcodes.md), so each meaning is one update of the state
that `State.retire` leaves: its buffer, and FMT for the two FrameData opcodes. -/

namespace Sys2Proof.Machine

/-- Settles O28, opcode by opcode (R170 to R173): no branch is taken, and `State.retire` moves CUR past the record (R133). -/
theorem bufferOpcodesComplete : Obligations.BufferOpcodesComplete := by
  intro s p
  refine ⟨?frameDataV6, ?skipMap, ?decodingMap, ?frameDataV10⟩
  case frameDataV6 => exact (rfl : execFrameDataV6 p s = _)
  case skipMap => exact (rfl : execSkipMap p s = _)
  case decodingMap => exact (rfl : execDecodingMap p s = _)
  case frameDataV10 => exact (rfl : execFrameDataV10 p s = _)

end Sys2Proof.Machine
end

section
/-! The audio opcodes and the checks of SendVideo (O29, O30). Every check of one opcode raises the same fault, so
the checks of an opcode are stated as one disjunction, the test that decides between the fault and the effect. -/

namespace Sys2Proof.Machine

section
variable {s : State}

/-! ### The checks of each opcode as one test -/

/-- R180. -/
theorem execAudioFrame_fields (v : AudioFrameFields) : execAudioFrame (.fields v) s =
    if s.audInit = false ∨ v.pcm.length ≠ v.len.toNat then raiseIn s .badConfiguration
    else .next ((s.retire (6 + v.pcm.length)).enqueue v.pcm) :=
  (ite_or ..).symm

/-- R181. -/
theorem execAudioSilent_fields (v : AudioSilentFields) : execAudioSilent (.fields v) s =
    if s.audInit = false then raiseIn s .badConfiguration
    else .next ((s.retire 6).enqueue (List.replicate v.len.toNat Config.silenceSample)) :=
  rfl

/-- R180: without the three operands the payload is missized. -/
theorem exec_audioFrame_of_short {p : List Byte} (hp : p.length < 6) :
    exec (Opcode.audioFrame.instr p) s = raiseIn s .badConfiguration :=
  congrArg (execAudioFrame · s) (decodeAudioFrame_isFormat.decode_of_not_size (Nat.not_le_of_lt hp))

/-- R220: the checks before the reconstructor of the pending format is chosen. -/
theorem exec_sendVideo_of_unready (v : SendVideoFields) (h : s.vidInit = false ∨ s.fmt = .none) :
    exec (.sendVideo (.fields v)) s = raiseIn s .badConfiguration := by
  by_cases hv : s.vidInit = false
  case pos => exact if_pos hv
  case neg =>
    have hf : s.fmt = .none := h.resolve_left hv
    exact (if_neg hv).trans (by rw [hf])

end

/-! ### The obligations -/

/-- Settles O29: no check of R180 or R181 holds, and the samples moved past are `len` many. -/
theorem audioOpcodesComplete : Obligations.AudioOpcodesComplete := by
  intro s haud
  have hinit : ¬s.audInit = false := ne_false_of_eq_true haud
  refine ⟨fun v hlen => ?audioFrame, fun v => ?audioSilent⟩
  case audioFrame =>
    have hcur : s.cur + 10 + v.len.toNat = s.cur + 4 + (6 + v.pcm.length) := by omega
    rw [hcur]
    exact (execAudioFrame_fields v).trans (if_neg (not_or.2 ⟨hinit, not_not.2 hlen⟩))
  case audioSilent => exact (execAudioSilent_fields v).trans (if_neg hinit)

/-- Settles O30: each check is a disjunct of its opcode's one test, or leaves the payload missized. -/
theorem audioAndSendVideoChecksRaise : Obligations.AudioAndSendVideoChecksRaise := by
  intro s hr
  rw [← raiseIn_of_outside hr]
  exact ⟨fun v h => (execAudioFrame_fields v).trans (if_pos h), fun v h => (execAudioSilent_fields v).trans (if_pos h),
    fun _ hp => exec_audioFrame_of_short hp, exec_sendVideo_of_unready⟩

end Sys2Proof.Machine
end

section
/-! Addressing (O49 to O51). A surface address is a pixel: its row times the pitch plus its column. The anchor of a block, a
source in bounds and the bytes that a copy's rows write are all compared as pixels, so that two addresses of two 8 × 8 regions
are the same only where the regions share a row and a column. -/

namespace Sys2Proof.Machine

/-! ### Pixels -/

/-- A column and a row are determined by their address. -/
theorem pixel_inj {w x y x' y' : Nat} (hx : x < w) (hx' : x' < w) (h : x + w * y = x' + w * y') : x = x' ∧ y = y' := by
  have hw : 0 < w := Nat.zero_lt_of_lt hx
  have hmod := congrArg (· % w) h
  have hdiv := congrArg (· / w) h
  simp only [Nat.add_mul_mod_self_left, Nat.mod_eq_of_lt hx, Nat.mod_eq_of_lt hx'] at hmod
  simp only [Nat.add_mul_div_left _ _ hw, Nat.div_eq_of_lt hx, Nat.div_eq_of_lt hx', Nat.zero_add] at hdiv
  exact ⟨hmod, hdiv⟩

section
variable {s : State} {b : Nat}

theorem State.wBlk_pos_of_lt (hb : b < s.blocks) : 0 < s.wBlk.toNat := Nat.pos_of_mul_pos_right (Nat.zero_lt_of_lt hb)

theorem State.width_of_lt (hb : b < s.blocks) : 8 ≤ s.width := by
  have hw := State.wBlk_pos_of_lt hb
  unfold State.width; omega

/-- R190: the column and the row of a block's top-left pixel. -/
theorem State.anchor_eq_pixel (s : State) (b : Nat) :
    s.anchor b = 8 * (b % s.wBlk.toNat) + s.width * (8 * (b / s.wBlk.toNat)) := by
  unfold State.anchor; ring

/-- A block's columns lie in the surface. -/
theorem State.anchor_column_le (hb : b < s.blocks) : 8 * (b % s.wBlk.toNat) + 8 ≤ s.width := by
  have hm : b % s.wBlk.toNat < s.wBlk.toNat := Nat.mod_lt _ (State.wBlk_pos_of_lt hb)
  unfold State.width; omega

/-- R190: the last pixel of the last block is the last byte of the surface. -/
theorem State.anchor_last (hn : 0 < s.blocks) : s.anchor (s.blocks - 1) + 7 * s.width + 8 = s.pixels := by
  unfold State.blocks at hn
  rw [State.anchor_eq_pixel]
  unfold State.pixels State.width State.height State.blocks
  generalize s.wBlk.toNat = w, s.hBlk.toNat = h at *
  obtain ⟨u, rfl⟩ : ∃ u, w = u + 1 := Nat.exists_eq_add_one.2 (Nat.pos_of_mul_pos_right hn)
  obtain ⟨v, rfl⟩ : ∃ v, h = v + 1 := Nat.exists_eq_add_one.2 (Nat.pos_of_mul_pos_left hn)
  have hlast : (u + 1) * (v + 1) - 1 = u + (u + 1) * v := Nat.sub_eq_of_eq_add (by ring)
  rw [hlast, Nat.add_mul_mod_self_left, Nat.add_mul_div_left _ _ u.succ_pos, Nat.mod_eq_of_lt u.lt_succ_self,
    Nat.div_eq_of_lt u.lt_succ_self]
  ring

/-- R193 on addresses that are not negative. -/
theorem State.inBounds_iff (s : State) (a : Int) : s.inBounds a = true ↔
    0 ≤ a ∧ a.toNat % s.width + 8 ≤ s.width ∧ a.toNat / s.width + 8 ≤ s.height := by
  simp only [State.inBounds, Bool.and_eq_true, decide_eq_true_eq, and_assoc, and_congr_right_iff]
  intro ha
  obtain ⟨n, rfl⟩ := Int.eq_ofNat_of_zero_le ha
  rw [Int.toNat_natCast]
  norm_cast

end

/-! ### The rows of a copy on one surface -/

section
variable {w a d : Nat} {m : Nat → Byte}

/-- A byte in none of the rows written is as before. -/
theorem rowsAfter_of_unwritten {k x : Nat} (h : ∀ j, j < k → ¬(d + j * w ≤ x ∧ x < d + j * w + 8)) :
    rowsAfter w a d m k x = m x := by
  induction k with
  | zero => rfl
  | succ k ih => rw [rowsAfter, if_neg (h k k.lt_succ_self), ih fun j hj => h j (by omega)]

/-- A byte of the block is the old byte of the source region, when no row above its own has written that one. -/
theorem rowsAfter_of_unread {k row col : Nat} (hw : 8 ≤ w) (hrow : row < k) (hcol : col < 8)
    (h : ∀ j, j < row → ¬(d + j * w ≤ a + row * w + col ∧ a + row * w + col < d + j * w + 8)) :
    rowsAfter w a d m k (d + row * w + col) = m (a + row * w + col) := by
  induction k with
  | zero => omega
  | succ k ih =>
    rw [rowsAfter]
    by_cases hk : row = k
    · subst hk
      rw [if_pos (by omega), show d + row * w + col - (d + row * w) = col by omega]
      exact rowsAfter_of_unwritten h
    · have hlt : row < k := by omega
      have hnext : row * w + w ≤ k * w := by simpa [Nat.add_mul] using Nat.mul_le_mul_right w (Nat.succ_le_of_lt hlt)
      rw [if_neg (by omega)]
      exact ih hlt

/-- R194: a row of the source region shares no byte with the rows of the block above it, when the source region is not above the
block, or 8 or more rows above it, or 8 or more columns beside it. -/
theorem source_row_unwritten {ax ay dx dy row col j : Nat} (hax : ax + 8 ≤ w) (hdx : dx + 8 ≤ w) (hrow : row < 8)
    (hcol : col < 8) (hj : j < row) (h : dy ≤ ay ∨ ay + 8 ≤ dy ∨ ax + 8 ≤ dx ∨ dx + 8 ≤ ax) :
    ¬(dx + w * dy + j * w ≤ ax + w * ay + row * w + col ∧ ax + w * ay + row * w + col < dx + w * dy + j * w + 8) := by
  rintro ⟨hlo, hhi⟩
  obtain ⟨c, hc⟩ := Nat.exists_eq_add_of_le hlo
  have hsame : (ax + col) + w * (ay + row) = (dx + c) + w * (dy + j) := by linarith
  obtain ⟨hcols, hrows⟩ := pixel_inj (by omega) (by omega) hsame
  omega

end

/-! ### The obligations -/

/-- Settles O49: R190 with the surface's length as `State.pixels`. -/
theorem anchorsAreInRange : Obligations.AnchorsAreInRange := by
  intro s
  refine ⟨fun b hb => ⟨rfl, ?_⟩, fun hn => ?_⟩
  · have h := s.anchor_le hb
    unfold State.pixels at h
    omega
  · have h := State.anchor_last hn
    unfold State.pixels at h
    omega

/-- Settles O50: the last of the 64 addresses is the one of row 7 and column 7. -/
theorem boundsCheckMeansInside : Obligations.BoundsCheckMeansInside := by
  intro s a hn
  have hw : 8 ≤ s.width := State.width_of_lt hn
  refine ⟨?_, fun hin r c hr hc => ?_⟩
  · rw [s.inBounds_iff]
    refine and_congr_right fun _ => and_congr_left fun _ => ?_
    omega
  · obtain ⟨-, hlast⟩ := s.inBounds_le hin
    have hrow : r * s.width ≤ 7 * s.width := Nat.mul_le_mul_right _ (by omega)
    unfold State.pixels at hlast
    omega

/-- Settles O51: the source region and the block are compared as pixels, the source at (ax, ay). -/
theorem noOverlapMeansPlainCopy : Obligations.NoOverlapMeansPlainCopy := by
  intro s b off m row col hb hin hrow hcol hsep
  obtain ⟨h0, hcolumn, -⟩ := (s.inBounds_iff _).1 hin
  obtain ⟨a, ha⟩ := Int.eq_ofNat_of_zero_le h0
  rw [ha, Int.toNat_natCast] at hcolumn ⊢
  rw [ha, ← Int.natCast_ediv, ← Int.natCast_emod, le_abs] at hsep
  refine rowsAfter_of_unread (State.width_of_lt hb) hrow hcol fun j hj => ?_
  rw [s.anchor_eq_pixel, ← Nat.mod_add_div a s.width]
  exact source_row_unwritten hcolumn (State.anchor_column_le hb) hrow hcol hj (by omega)

end Sys2Proof.Machine
end

section
/-! The block operations (O40 to O43, O46, O47). The four offset copies do one thing with different surfaces, and the two
literals another; so each is stated once, as what it answers with the SendVideo in progress, and the facts about the five
primitives of the block-copy engine give its bytes, its frame and its faults. -/

namespace Sys2Proof.Machine

/-! ### The two effects that consume a map word and write a block -/

/-- What an offset copy from `src` into `dst` does to the SendVideo in progress, its map word being consumed (R192). -/
def copyWord (dst src : Role) (off : Int) (s : State) (r : Recon) : Res Recon := do
  let x ← copyBlockWithOffset s dst src r.b off r.surf
  .ok { r.nextWord with surf := x }

/-- What a literal into `dst` does to the SendVideo in progress, its map word and the literal being consumed (R191). -/
def literalWord (dst : Role) (s : State) (r : Recon) : Res Recon := do
  let x ← copyLiteralBlock s dst r.b r.lc r.surf
  .ok { r.nextWord with surf := x, lc := r.lc + 64 }

/-- `i` executes at `r` as a copy, into its second surface, of its third surface at the biased offset `v`: the destination and
the source of R229, R230, R244 and R245, in the pass that reads `i`, an F6.INTER not being gated. -/
inductive Recon.ExecutesCopy (r : Recon) (v : BitVec 15) : Instr → Role → Role → Prop
  | f6Inter (hpass : r.pass = .f6Pass2) (hfn : 0 < r.fn) : ExecutesCopy r v (.f6Inter v) .f .r0
  | f6Intra (hpass : r.pass = .f6Pass2) : ExecutesCopy r v (.f6Intra v) .f .f
  | f10Cur (hpass : r.pass = .f10Pass2) (hdue : r.wordDue = true) : ExecutesCopy r v (.f10Cur v) .r0 .r0
  | f10Prev (hpass : r.pass = .f10Pass2) (hdue : r.wordDue = true) : ExecutesCopy r v (.f10Prev v) .r0 .r1

/-- `i` executes at `r` as a literal into the surface (R225, R242). -/
inductive Recon.ExecutesLiteral (r : Recon) : Instr → Role → Prop
  | f6Lit (hpass : r.pass = .f6Pass1) : ExecutesLiteral r .f6Lit .f
  | f10Lit (hpass : r.pass = .f10Pass1) (hdue : r.wordDue = true) : ExecutesLiteral r .f10Lit .r0

section
variable {s : State} {r : Recon} {i : Instr} {v : BitVec 15} {dst src : Role} {off : Int} {y : Surfaces}

/-! ### What the instructions answer -/

/-- `onBlock_during` at a state that holds the SendVideo in progress already. -/
theorem onBlock_of_recon {ctx : List Context} {op : State → Recon → Res Recon} {x : Res Recon} (hr : s.recon = some r)
    (hc : r.context ∈ ctx) (hb : r.b < s.blocks) (hop : op s r = x) : onBlock ctx op s = blockAnswer s x := by
  have hs := State.during_of_recon hr
  rw [← hs] at hop
  simpa only [hs] using onBlock_during hc hb hop

theorem exec_of_executesCopy (hr : s.recon = some r) (hb : r.b < s.blocks) (h : r.ExecutesCopy v i dst src) :
    exec i s = blockAnswer s (copyWord dst src (offsetOf v) s r) := by
  cases h with
  | f6Inter hpass hfn => exact onBlock_of_recon (op := f6Inter v) hr (by simp [Recon.context, hpass]) hb (if_pos hfn)
  | f6Intra hpass => exact onBlock_of_recon (op := f6Intra v) hr (by simp [Recon.context, hpass]) hb rfl
  | f10Cur hpass hdue => exact onBlock_of_recon (op := f10Cur v) hr (by simp [Recon.context, hpass, hdue]) hb rfl
  | f10Prev hpass hdue => exact onBlock_of_recon (op := f10Prev v) hr (by simp [Recon.context, hpass, hdue]) hb rfl

theorem exec_of_executesLiteral (hr : s.recon = some r) (hb : r.b < s.blocks) (h : r.ExecutesLiteral i dst) :
    exec i s = blockAnswer s (literalWord dst s r) := by
  cases h with
  | f6Lit hpass => exact onBlock_of_recon (op := f6Lit) hr (by simp [Recon.context, hpass]) hb rfl
  | f10Lit hpass hdue => exact onBlock_of_recon (op := f10Lit) hr (by simp [Recon.context, hpass, hdue]) hb rfl

/-- R226: from frame number 2 on, F6.REF1 is a copy at offset 0. -/
theorem exec_f6Ref1_of_ungated (hr : s.recon = some r) (hb : r.b < s.blocks) (hpass : r.pass = .f6Pass1) (hfn : 1 < r.fn)
    (op : Word16) : exec (.f6Ref1 op) s = blockAnswer s (copyWord .f .r1 0 s r) :=
  onBlock_of_recon (op := f6Ref1) hr (by simp [Recon.context, hpass]) hb (if_pos hfn)

/-- F10.SHOW in pass 3, and SKIP.N there as the model takes it (log entry 8). -/
theorem exec_show (hr : s.recon = some r) (hb : r.b < s.blocks) (hpass : r.pass = .f10Pass3)
    (hi : i = .f10Show ∨ i = .skipN) : exec i s = blockAnswer s (showBlock s r) := by
  rcases hi with rfl | rfl
  · exact onBlock_of_recon (op := showBlock) hr (by simp [Recon.context, hpass]) hb rfl
  · exact onBlock_of_recon (op := keepBlock) hr (by simp [Recon.context, hpass]) hb (if_pos hpass)

/-! ### The effects that complete -/

theorem copyWord_ok (h : copyBlockWithOffset s dst src r.b off r.surf = .ok y) :
    copyWord dst src off s r = .ok { r with b := r.b + 1, mc := r.mc + 2, wordDue := false, surf := y } := by
  rw [copyWord, h, Res.ok_bind]; rfl

theorem literalWord_ok (h : copyLiteralBlock s dst r.b r.lc r.surf = .ok y) : literalWord dst s r =
    .ok { r with b := r.b + 1, mc := r.mc + 2, lc := r.lc + 64, wordDue := false, surf := y } := by
  rw [literalWord, h, Res.ok_bind]; rfl

theorem showBlock_ok {k : Bool × SkipStream} (hk : r.skip.next s.sm = .ok k)
    (h : copyBlock s .f .r0 r.b r.surf = .ok y) :
    showBlock s r = .ok { r with b := r.b + 1, wordDue := false, skip := k.2, surf := y } := by
  rw [showBlock, takeFlag_ok hk, Res.ok_bind, h, Res.ok_bind]; rfl

theorem inBlock_of_pixel {w d row col : Nat} (hrow : row < 8) (hcol : col < 8) : inBlock w d (d + row * w + col) :=
  ⟨row, hrow, by omega, by omega⟩

theorem inBlock.anchor_le {w d z : Nat} (h : inBlock w d z) : d ≤ z := by
  obtain ⟨row, -, hrow, -⟩ := h
  omega

/-- All that `copyBlock` does at a block of the grid: the copy at offset 0 is in bounds, and reads each byte of the block at the
address where it writes it (R195). -/
theorem copyBlock_ok {b : Nat} {x : Surfaces} (hx : x.fit s.pixels) (hb : b < s.blocks) (hne : dst ≠ src) :
    ∃ y, copyBlock s dst src b x = .ok y ∧ y.fit s.pixels ∧ (∀ j, j ≠ dst → y.get j = x.get j) ∧
      (∀ z, inBlock s.width (s.anchor b) z → (y.get dst).byte z = (x.get src).byte z) ∧
      ∀ z, ¬inBlock s.width (s.anchor b) z → (y.get dst).byte z = (x.get dst).byte z := by
  obtain ⟨y, hy, hfit, hframe, -, hbytes⟩ := copyBlockWithOffset_ok (dst := dst) (src := src) hx hb (s.inBounds_anchor hb)
  refine ⟨y, hy, hfit, hframe, fun z hz => ?_, fun z => (hbytes hne z).2⟩
  have hle : s.anchor b ≤ z := hz.anchor_le
  have haddr : (s.sourceAddr b 0).toNat + (z - s.anchor b) = z := by unfold State.sourceAddr; omega
  rw [(hbytes hne z).1 hz, haddr]

/-! ### The effects that raise -/

/-- R288: the answer of a block operation that raises. -/
theorem blockAnswer_raised (s : State) (c : ErrCode) :
    blockAnswer s (raised c) = .next { s with err := some c, recon := none } := rfl

theorem copyWord_raise (h : s.inBounds (s.sourceAddr r.b off) = false) :
    copyWord dst src off s r = raised .offsetOutOfBounds := by
  rw [copyWord, copyBlockWithOffset_raise h]; rfl

theorem literalWord_raise (h : s.fd.length < r.lc + 64) : literalWord dst s r = raised .mapExhausted := by
  rw [literalWord, copyLiteralBlock_raise h]; rfl

/-- R213: the skip stream has no bit left, and SM no whole word. -/
theorem takeFlag_raise (hbits : r.skip.bits = 0) (hsm : s.sm.length < 2 * r.skip.pos + 2) :
    takeFlag s r = raised .mapExhausted := by
  rw [takeFlag, SkipStream.next, if_pos hbits, if_pos hsm]; rfl

/-- Every block operation of the flags takes its flag first. -/
theorem flagBlock_raise (h : takeFlag s r = raised .mapExhausted) :
    skipBlock s r = raised .mapExhausted ∧ keepBlock s r = raised .mapExhausted ∧
      showBlock s r = raised .mapExhausted := by
  have hshow : showBlock s r = raised .mapExhausted := by rw [showBlock, h]; rfl
  refine ⟨by rw [skipBlock, h]; rfl, ?_, hshow⟩
  unfold keepBlock
  split
  · exact hshow
  · rw [h]; rfl

theorem exec_flag_raise (hr : s.recon = some r) (hb : r.b < s.blocks) (hbits : r.skip.bits = 0)
    (hsm : s.sm.length < 2 * r.skip.pos + 2)
    (hi : (i = .skipS ∨ i = .skipN) ∧ r.context ∈ [Context.skipFlag, .showFlag] ∨ i = .f10Show ∧ r.context = .showFlag) :
    exec i s = blockAnswer s (raised .mapExhausted) := by
  obtain ⟨hskip, hkeep, hshow⟩ := flagBlock_raise (takeFlag_raise hbits hsm)
  rcases hi with ⟨rfl | rfl, hc⟩ | ⟨rfl, hc⟩
  · exact onBlock_of_recon hr hc hb hskip
  · exact onBlock_of_recon hr hc hb hkeep
  · exact onBlock_of_recon hr (by simp [hc]) hb hshow

end

/-! ### The obligations -/

/-- Settles O40: the bytes and the frame are those of `copyLiteralBlock`. -/
theorem literalOperationsComplete : Obligations.LiteralOperationsComplete := by
  intro s r i dst hr hfit hb hfd h
  have hlit : r.ExecutesLiteral i dst := by
    rcases h with ⟨rfl, rfl, hpass⟩ | ⟨rfl, rfl, hpass, hdue⟩
    · exact .f6Lit hpass
    · exact .f10Lit hpass hdue
  obtain ⟨y, hy, hyfit, hframe, hbytes, hout⟩ := copyLiteralBlock_ok (dst := dst) hfit hb hfd
  refine ⟨y, hyfit, hframe, hbytes, hout, ?_⟩
  rw [exec_of_executesLiteral hr hb hlit, literalWord_ok hy]
  rfl

/-- Settles O41: the source is another surface, so every byte of the block is read from the surfaces as they were. -/
theorem referenceCopiesComplete : Obligations.ReferenceCopiesComplete := by
  intro s r i v dst src hr hfit hb hin h
  obtain ⟨hcopy, hne⟩ : r.ExecutesCopy v i dst src ∧ dst ≠ src := by
    rcases h with ⟨rfl, rfl, rfl, hpass, hfn⟩ | ⟨rfl, rfl, rfl, hpass, hdue⟩
    · exact ⟨.f6Inter hpass hfn, nofun⟩
    · exact ⟨.f10Prev hpass hdue, nofun⟩
  obtain ⟨y, hy, hyfit, hframe, -, hbytes⟩ :=
    copyBlockWithOffset_ok (dst := dst) (src := src) (off := offsetOf v) hfit hb hin
  refine ⟨y, hyfit, hframe, fun row col hrow hcol => ?_, fun z => (hbytes hne z).2, ?_⟩
  · rw [(hbytes hne _).1 (inBlock_of_pixel hrow hcol), Nat.add_assoc (s.anchor r.b), Nat.add_sub_cancel_left,
      ← Nat.add_assoc]
    rfl
  · rw [exec_of_executesCopy hr hb hcopy, copyWord_ok hy]
    rfl

/-- Settles O42: one surface is source and destination, so its bytes are those of `rowsAfter`, which writes only the block. -/
theorem selfCopiesComplete : Obligations.SelfCopiesComplete := by
  intro s r i v dst hr hfit hb hin h
  have hcopy : r.ExecutesCopy v i dst dst := by
    rcases h with ⟨rfl, rfl, hpass⟩ | ⟨rfl, rfl, hpass, hdue⟩
    · exact .f6Intra hpass
    · exact .f10Cur hpass hdue
  obtain ⟨y, hy, hyfit, hframe, hbytes, -⟩ :=
    copyBlockWithOffset_ok (dst := dst) (src := dst) (off := offsetOf v) hfit hb hin
  refine ⟨y, hyfit, hframe, hbytes rfl, fun z hz => ?_, ?_⟩
  · rw [hbytes rfl z]
    exact rowsAfter_of_unwritten fun j hj hrow => hz ⟨j, hj, hrow⟩
  · rw [exec_of_executesCopy hr hb hcopy, copyWord_ok hy]
    rfl

/-- Settles O43: both are `copyBlock` into F, F10.SHOW after the flag is taken. -/
theorem coLocatedCopiesComplete : Obligations.CoLocatedCopiesComplete := by
  intro s r hr hfit hb
  refine ⟨fun op hpass hfn => ?ref1, fun k i hpass hk hi => ?shown⟩
  case ref1 =>
    obtain ⟨y, hy, hyfit, hframe, hbytes, hout⟩ := copyBlock_ok (dst := .f) (src := .r1) hfit hb nofun
    refine ⟨y, hyfit, hframe .r0 nofun, hframe .r1 nofun, hbytes, hout, ?_⟩
    rw [exec_f6Ref1_of_ungated hr hb hpass hfn, copyWord_ok hy]
    rfl
  case shown =>
    obtain ⟨y, hy, hyfit, hframe, hbytes, hout⟩ := copyBlock_ok (dst := .f) (src := .r0) hfit hb nofun
    refine ⟨y, hyfit, hframe .r0 nofun, hframe .r1 nofun, hbytes, hout, ?_⟩
    rw [exec_show hr hb hpass hi, showBlock_ok hk hy]
    rfl

/-- Settles O46: whatever the two surfaces, the bounds check of R193 comes first. -/
theorem outOfBoundsCopiesRaise : Obligations.OutOfBoundsCopiesRaise := by
  intro s r i v hr hb hout h
  obtain ⟨dst, src, hcopy⟩ : ∃ dst src, r.ExecutesCopy v i dst src := by
    rcases h with ⟨rfl, hpass, hfn⟩ | ⟨rfl, hpass⟩ | ⟨rfl, hpass, hdue⟩ | ⟨rfl, hpass, hdue⟩
    · exact ⟨_, _, .f6Inter hpass hfn⟩
    · exact ⟨_, _, .f6Intra hpass⟩
    · exact ⟨_, _, .f10Cur hpass hdue⟩
    · exact ⟨_, _, .f10Prev hpass hdue⟩
  rw [exec_of_executesCopy hr hb hcopy, copyWord_raise (off := offsetOf v) hout, blockAnswer_raised]

/-- Settles O47: the literals check FD, and the flags SM, before they touch a surface. -/
theorem exhaustedInputsRaise : Obligations.ExhaustedInputsRaise := by
  intro s r i hr hb h
  rw [← blockAnswer_raised]
  rcases h with ⟨rfl, hpass, hfd⟩ | ⟨rfl, hpass, hdue, hfd⟩ | ⟨hi, hpass, hbits, hsm⟩ | ⟨hi, hpass, hdue, hbits, hsm⟩
  · rw [exec_of_executesLiteral hr hb (.f6Lit hpass), literalWord_raise hfd]
  · rw [exec_of_executesLiteral hr hb (.f10Lit hpass hdue), literalWord_raise hfd]
  · have hc : r.context = .showFlag := by simp [Recon.context, hpass]
    refine exec_flag_raise hr hb hbits hsm ?_
    rcases hi with rfl | rfl | rfl <;> simp [hc]
  · have hc : r.context = .skipFlag := by rcases hpass with hp | hp <;> simp [Recon.context, hp, hdue]
    exact exec_flag_raise hr hb hbits hsm (.inl ⟨hi, by simp [hc]⟩)

end Sys2Proof.Machine
end

section
/-! The skip stream in closed form (O52). What the stream is after `j` calls is a predicate that one call carries from `j` to
`j + 1` as long as SM holds the flag's word, and from the first missing word on every call raises. -/

namespace Sys2Proof.Machine

/-! ### The bits of a little-endian word -/

theorem u16_eq_append (lo hi : Byte) : u16 lo hi = hi ++ lo := by
  apply BitVec.eq_of_toNat_eq
  rw [u16_toNat, BitVec.toNat_append, ← Nat.shiftLeft_add_eq_or_of_lt lo.isLt, Nat.shiftLeft_eq]
  omega

/-- R63: the bits of a word are those of its low byte, then those of its high byte. -/
theorem u16LE_getLsbD (x : List Byte) (a : Nat) {i : Nat} (hi : i < 16) :
    (u16LE x a).getLsbD i = (x.getD (a + i / 8) 0).getLsbD (i % 8) := by
  rw [u16LE, u16_eq_append, BitVec.getLsbD_append]
  by_cases hlow : i < 8
  · rw [Nat.div_eq_of_lt hlow, Nat.mod_eq_of_lt hlow]
    simp [hlow]
  · have hdiv : i / 8 = 1 := by omega
    have hmod : i % 8 = i - 8 := by omega
    simp [hlow, hdiv, hmod]

/-- R212 `bit = 0`: the lowest bit, as a remainder and as a bit. -/
theorem toNat_mod_two_beq_zero (w : Word16) : (w.toNat % 2 == 0) = !w.getLsbD 0 := by
  rw [← BitVec.testBit_toNat, Nat.testBit_zero]
  rcases Nat.mod_two_eq_zero_or_one w.toNat with h | h <;> simp [h]

/-! ### One call -/

section
variable {sm : List Byte} {j : Nat} {k : SkipStream}

/-- The skip stream that has delivered `j` flags since `reset`: inside a word, SK_WORD holds the flags of that word that are
left, the next one at bit 0 (R210). -/
structure SkipStream.Delivered (sm : List Byte) (j : Nat) (k : SkipStream) : Prop where
  pos : k.pos = (j + 15) / 16
  bits : k.bits = (16 - j % 16) % 16
  word : j % 16 ≠ 0 → k.word = u16LE sm (2 * (j / 16)) >>> (j % 16)

theorem SkipStream.delivered_reset (sm : List Byte) : SkipStream.reset.Delivered sm 0 := ⟨rfl, rfl, nofun⟩

/-- R212: a call that the supply covers delivers the flag of the closed form, from a new word when none is left of the last
one. -/
theorem SkipStream.Delivered.next_ok (h : k.Delivered sm j) (hj : j < 16 * (sm.length / 2)) :
    ∃ k', k.next sm = .ok (skippedAt sm j, k') ∧ k'.Delivered sm (j + 1) := by
  obtain ⟨hpos, hbits, hword⟩ := h
  rcases SkipStream.next_inv (sm := sm) (k := k) rfl with ⟨h0, hlen, -⟩ | ⟨h0, -, e⟩ | ⟨h0, e⟩
  · omega
  · have hmod : j % 16 = 0 := by omega
    have hdiv : k.pos = j / 16 := by omega
    refine ⟨_, by rw [e, toNat_mod_two_beq_zero, hdiv, skippedAt, hmod], ⟨?_, ?_, fun _ => ?_⟩⟩
    · show j / 16 + 1 = _
      omega
    · show 15 = _
      omega
    · rw [show (j + 1) / 16 = j / 16 by omega, show (j + 1) % 16 = 1 by omega]
  · have hmod : j % 16 ≠ 0 := by omega
    have hflag : k.word.getLsbD 0 = (u16LE sm (2 * (j / 16))).getLsbD (j % 16) := by
      rw [hword hmod, BitVec.getLsbD_ushiftRight, Nat.add_zero]
    refine ⟨_, by rw [e, toNat_mod_two_beq_zero, hflag, skippedAt], ⟨?_, ?_, fun hlast => ?_⟩⟩
    · show k.pos = _
      omega
    · show k.bits - 1 = _
      omega
    · show k.word >>> 1 = _
      rw [hword hmod, ← BitVec.shiftRight_add, show (j + 1) / 16 = j / 16 by omega,
        show (j + 1) % 16 = j % 16 + 1 by omega]

/-- R213, R214: the call after the last flag of the last whole word. -/
theorem SkipStream.Delivered.next_raise (h : k.Delivered sm (16 * (sm.length / 2))) :
    k.next sm = raised .mapExhausted := by
  obtain ⟨hpos, hbits, -⟩ := h
  rcases SkipStream.next_inv (sm := sm) (k := k) rfl with ⟨-, -, e⟩ | ⟨-, hlen, -⟩ | ⟨h0, -⟩
  · exact e
  · omega
  · omega

/-! ### All calls since `reset` -/

theorem skipStreamAfter_succ (sm : List Byte) (j : Nat) :
    skipStreamAfter sm (j + 1) = (skipStreamAfter sm j >>= fun k => k.next sm) >>= fun n => .ok n.2 :=
  (bind_assoc _ _ _).symm

theorem skipCall_eq_bind (sm : List Byte) (j : Nat) :
    skipCall sm j = (skipStreamAfter sm j >>= fun k => k.next sm) >>= fun n => .ok n.1 :=
  (bind_assoc _ _ _).symm

/-- The supply is one flag for each bit of a whole word of SM (R213). -/
theorem skipStreamAfter_ok (hj : j ≤ 16 * (sm.length / 2)) :
    ∃ k, skipStreamAfter sm j = .ok k ∧ k.Delivered sm j := by
  induction j with
  | zero => exact ⟨_, rfl, SkipStream.delivered_reset sm⟩
  | succ j ih =>
    obtain ⟨k, hk, hdelivered⟩ := ih (by omega)
    obtain ⟨k', hnext, hdelivered'⟩ := hdelivered.next_ok (by omega)
    exact ⟨k', by rw [skipStreamAfter_succ, hk, Res.ok_bind, hnext, Res.ok_bind], hdelivered'⟩

/-- R213: the call past the supply raises, and so there is no stream for a later call. -/
theorem skipStreamAfter_bind_next_raise (hj : 16 * (sm.length / 2) ≤ j) :
    (skipStreamAfter sm j >>= fun k => k.next sm) = raised .mapExhausted := by
  induction j, hj using Nat.le_induction with
  | base =>
    obtain ⟨k, hk, hdelivered⟩ := skipStreamAfter_ok (Nat.le_refl (16 * (sm.length / 2)))
    rw [hk, Res.ok_bind, hdelivered.next_raise]
  | succ j _ ih =>
    rw [skipStreamAfter_succ, ih]
    rfl

theorem skipCall_ok (hj : j < 16 * (sm.length / 2)) : skipCall sm j = .ok (skippedAt sm j) := by
  obtain ⟨k, hk, hdelivered⟩ := skipStreamAfter_ok hj.le
  obtain ⟨k', hnext, -⟩ := hdelivered.next_ok hj
  rw [skipCall_eq_bind, hk, Res.ok_bind, hnext, Res.ok_bind]

theorem skipCall_raise (hj : 16 * (sm.length / 2) ≤ j) : skipCall sm j = raised .mapExhausted := by
  rw [skipCall_eq_bind, skipStreamAfter_bind_next_raise hj]
  rfl

/-- R215: the flag by its word and by its byte. -/
theorem skippedAt_eq_byte (sm : List Byte) (j : Nat) :
    skippedAt sm j = !(sm.getD (2 * (j / 16) + (j % 16) / 8) 0).getLsbD (j % 8) := by
  rw [skippedAt, u16LE_getLsbD sm _ (Nat.mod_lt j (by decide)), Nat.mod_mod_of_dvd j (by decide)]

end

/-- Settles O52: the word of call `j` is there exactly when `j` is below the supply of 16 flags for each whole word. -/
theorem skipStreamClosedForm : Obligations.SkipStreamClosedForm := by
  refine fun sm j => ⟨fun hlen => ?_, fun hlen => skipCall_raise (by omega)⟩
  have hcall : skipCall sm j = .ok (skippedAt sm j) := skipCall_ok (by omega)
  exact ⟨hcall, skippedAt_eq_byte sm j ▸ hcall⟩

end Sys2Proof.Machine
end

section
/-! A sub-step is its instruction (O6), and the words that consume nothing but themselves (O44). -/

namespace Sys2Proof.Machine

/-- Settles O6: a sub-step at a block of the grid fetches and executes. -/
theorem stepRunsBlockInstruction : Obligations.StepRunsBlockInstruction := by
  intro s r i hl hd herr hr hb hf
  have he : s.enabled = true := State.enabled_iff.2 ⟨hl, hd, herr⟩
  simp only [step, if_pos he, hr, stepBlock, if_pos hb, hf]

/-- Settles O44: each of the five, in its pass, has the effect of `Recon.nextWord`; for the two copies their gate decides so. -/
theorem gatedAndNoOperationWordsComplete : Obligations.GatedAndNoOperationWordsComplete := by
  rintro s r i hr hb (⟨v, rfl, hpass, hfn⟩ | ⟨op, rfl, hpass, hfn⟩ | ⟨rfl, hpass⟩ | ⟨op, rfl, hpass, hdue⟩ |
    ⟨rfl, hpass, hdue⟩)
  case inl => exact onBlock_ok (op := f6Inter v) hr (by simp [Recon.context, hpass]) hb (if_neg (Int.not_lt.2 hfn))
  case inr.inl => exact onBlock_ok (op := f6Ref1) hr (by simp [Recon.context, hpass]) hb (if_neg (Int.not_lt.2 hfn))
  case inr.inr.inl => exact onBlock_ok (op := fun _ r => f6Nop2 r) hr (by simp [Recon.context, hpass]) hb rfl
  case inr.inr.inr.inl =>
    exact onBlock_ok (op := fun _ r => f10Nop1 r) hr (by simp [Recon.context, hpass, hdue]) hb rfl
  case inr.inr.inr.inr =>
    exact onBlock_ok (op := fun _ r => f10Nop2 r) hr (by simp [Recon.context, hpass, hdue]) hb rfl

end Sys2Proof.Machine
end

section
/-! A format-6 frame is decided by its data (O31). At each block of a pass one condition on the data says whether the block
completes or raises, so the pass completes exactly if every block's condition holds; the counts that R233 speaks of are those
conditions put together. What is said of passes and of counts serves format 10 as well (O32). -/

namespace Sys2Proof.Machine

/-! ### A pass that the data decides -/

/-- What decides the first `n` blocks of a pass: at block `b`, with `P b` of the SendVideo in progress, `block` completes if the
data meets `need b`, and raises `c` if it does not. -/
structure PassDecided (n : Nat) (block : Recon → Res Recon) (P : Nat → Recon → Prop) (need : Nat → Prop) (c : ErrCode) :
    Prop where
  completes : ∀ {b : Nat} {r : Recon}, b < n → P b r → need b → ∃ r', block r = .ok r' ∧ P (b + 1) r'
  raises : ∀ {b : Nat} {r : Recon}, b < n → P b r → ¬need b → block r = raised c

section
variable {n : Nat} {block : Recon → Res Recon} {P : Nat → Recon → Prop} {need : Nat → Prop} {c : ErrCode} {r : Recon}

theorem PassDecided.runPass_ok (h : PassDecided n block P need c) (hr : P 0 r) (hneed : ∀ b, b < n → need b) :
    ∃ r', runPass block n r = .ok r' ∧ P n r' :=
  Machine.runPass_ok P n (fun b _ hb hP => h.completes hb hP (hneed b hb)) hr

/-- The blocks before the first whose condition fails complete, and that one raises (R233, R249). -/
theorem PassDecided.runPass_raise (h : PassDecided n block P need c) (hr : P 0 r) (hneed : ¬∀ b, b < n → need b) :
    runPass block n r = raised c := by
  suffices ∀ m b r, b + m = n → P b r → (¬∀ k, b ≤ k → k < n → need k) → runPass block m r = raised c from
    this n 0 r (Nat.zero_add n) hr (by simpa using hneed)
  intro m
  induction m with
  | zero => exact fun b r hn _ hrest => absurd (fun k _ _ => by omega) hrest
  | succ m ih =>
    intro b r hn hP hrest
    by_cases hb : need b
    · obtain ⟨r', hr', hP'⟩ := h.completes (by omega) hP hb
      rw [runPass, hr', Res.ok_bind]
      refine ih (b + 1) r' (by omega) hP' fun hall => hrest fun k hk hkn => ?_
      rcases Nat.eq_or_lt_of_le hk with rfl | hlt
      · exact hb
      · exact hall k hlt hkn
    · rw [runPass, h.raises (by omega) hP hb]
      rfl

end

/-! ### Counts -/

theorem length_filter_range {p : Nat → Prop} [DecidablePred p] (n : Nat) :
    ((List.range n).filter fun k => p k).length = Nat.count p n :=
  List.countP_eq_length_filter.symm

/-- Each of the chosen among the first `n` takes the next `m` bytes after the first `a` of `l`: all find theirs if the last
does. -/
theorem forall_room_iff {p : Nat → Prop} [DecidablePred p] {a m l : Nat} (n : Nat) :
    (∀ b, b < n → p b → a + m * (Nat.count p b + 1) ≤ l) ↔ (Nat.count p n ≠ 0 → a + m * Nat.count p n ≤ l) := by
  refine ⟨fun h => ?_, fun h b hb hp => ?_⟩
  · induction n with
    | zero => simp
    | succ n ih =>
      rw [Nat.count_succ]
      split
      · next hp => exact fun _ => h n n.lt_succ_self hp
      · exact ih fun b hb => h b (hb.trans n.lt_succ_self)
  · have hlt : Nat.count p b < Nat.count p n := Nat.count_strict_mono hp hb
    exact (Nat.add_le_add_left (Nat.mul_le_mul_left m hlt) a).trans (h (Nat.ne_zero_of_lt hlt))

/-! ### The two reads of a frame's data -/

theorem mapWordAt_ok {buf : List Byte} {mc : Nat} (h : mc + 2 ≤ buf.length) : mapWordAt buf mc = .ok (u16LE buf mc) :=
  if_neg (Nat.not_lt.2 h)

theorem mapWordAt_raise {buf : List Byte} {mc : Nat} (h : buf.length < mc + 2) : mapWordAt buf mc = raised .mapExhausted :=
  if_pos h

/-- What SendVideo leaves, from outside one, when its frame completes (R220). -/
theorem State.commit_of_outside {s : State} {r : Recon} (hr : s.recon = none) (hfn : r.fn = s.frameNo + 1) :
    s.commit r = { s with cur := s.cur + 10, frameNo := s.frameNo + 1, surf := r.surf } := by
  rw [State.commit, ← hr, ← hfn]; rfl

/-- R29: once InitVideo has run, the grid has a block. -/
theorem State.Inv.blocks_pos {s : State} (hi : s.Inv) (hv : s.vidInit = true) : 0 < s.blocks := by
  obtain ⟨hw, hh, -⟩ := hi.vidOn hv
  exact Nat.mul_pos hw hh

/-! ### Format 6: what each block does -/

section
variable {s : State} {r : Recon}

/-- R223: the surfaces after the pre-step of format 6. -/
def State.rotated6 (s : State) : Surfaces :=
  { f := s.surf.f
    r0 := if 0 < s.frameNo + 1 then s.surf.f else s.surf.r0
    r1 := if 1 < s.frameNo + 1 then s.surf.r0 else s.surf.r1 }

/-- The SendVideo in progress at the start of pass 1 of format 6 (R222, R223). -/
def State.start6 (s : State) : Recon := s.openRecon .f6Pass1 Config.fdHdr (Config.fdHdr + 2 * s.blocks) s.rotated6

theorem preStep6_ok (hs : s.surf.fit s.pixels) : preStep6 s (s.frameNo + 1) s.surf = .ok s.rotated6 := by
  have hr1 : (s.surf.set s.surf.r0 .r1).fit s.pixels := Surfaces.fit_set hs (hs .r0).1 (hs .r0).2 .r1
  unfold preStep6 State.rotated6
  by_cases h1 : 1 < s.frameNo + 1
  · have h0 : 0 < s.frameNo + 1 := by omega
    simp only [gt_iff_lt, if_pos h1, if_pos h0, copySurface_ok hs, Res.ok_bind]
    exact copySurface_ok hr1
  · by_cases h0 : 0 < s.frameNo + 1
    · simp only [gt_iff_lt, if_neg h1, if_pos h0, Res.ok_bind]
      exact copySurface_ok hs
    · simp only [gt_iff_lt, if_neg h1, if_neg h0, Res.ok_bind]

theorem openFormat6_ok (hs : s.surf.fit s.pixels) : openFormat6 s = .ok s.start6 := by
  rw [openFormat6, preStep6_ok hs]; rfl

theorem State.rotated6_fit (hs : s.surf.fit s.pixels) : s.rotated6.fit s.pixels :=
  preStep6_fit hs _ _ (preStep6_ok hs)

theorem format6_eq (hs : s.surf.fit s.pixels) : format6 s = (runPass (f6Block1 s) s.blocks s.start6 >>= fun r =>
    runPass (f6Block2 s) s.blocks (r.enter .f6Pass2 Config.fdHdr)) := by
  rw [format6, openFormat6_ok hs]; rfl

/-- At block `b` of a pass of format 6: the map cursor is at its word (R222), and the working copies fit. -/
structure Recon.At6 (s : State) (b : Nat) (r : Recon) : Prop where
  block : r.b = b
  mc : r.mc = 14 + 2 * b
  fn : r.fn = s.frameNo + 1
  fit : r.surf.fit s.pixels

theorem Recon.At6.nextWord {b : Nat} (h : r.At6 s b) : r.nextWord.At6 s (b + 1) :=
  ⟨congrArg (· + 1) h.block, congrArg (· + 2) h.mc, h.fn, h.fit⟩

/-- What a block that writes `y` leaves, whatever it does with the literal cursor. -/
theorem Recon.At6.writes {b lc : Nat} {y : Surfaces} (h : r.At6 s b) (hy : y.fit s.pixels) :
    Recon.At6 s (b + 1) { r with b := r.b + 1, mc := r.mc + 2, lc := lc, wordDue := false, surf := y } :=
  ⟨congrArg (· + 1) h.block, congrArg (· + 2) h.mc, h.fn, hy⟩

theorem Recon.At6.enter {b : Nat} (h : r.At6 s b) (p : Pass) : (r.enter p Config.fdHdr).At6 s 0 := ⟨rfl, rfl, h.fn, h.fit⟩

section
variable {b : Nat}

/-- R224 to R226: pass 1 at a block whose map word FD holds. -/
theorem Recon.At6.f6Block1_eq (h : r.At6 s b) (hmap : 14 + 2 * b + 2 ≤ s.fd.length) : f6Block1 s r =
    if s.word6 b = 0 then literalWord .f s r else if 1 < r.fn then copyWord .f .r1 0 s r else .ok r.nextWord := by
  rw [f6Block1, h.mc, mapWordAt_ok hmap]; rfl

theorem Recon.At6.f6Block1_raise (h : r.At6 s b) (hmap : s.fd.length < 14 + 2 * b + 2) :
    f6Block1 s r = raised .mapExhausted := by
  rw [f6Block1, h.mc, mapWordAt_raise hmap]; rfl

/-- R227 to R230: pass 2 at a block whose map word FD holds. -/
theorem Recon.At6.f6Block2_eq (h : r.At6 s b) (hmap : 14 + 2 * b + 2 ≤ s.fd.length) : f6Block2 s r =
    if s.word6 b ≠ 0 ∧ (sourceSelect (s.word6 b) = true → 0 < s.frameNo + 1) then
      copyWord .f (if sourceSelect (s.word6 b) then .r0 else .f) (offsetOf (biasedOffset (s.word6 b))) s r
    else .ok r.nextWord := by
  rw [f6Block2, h.mc, mapWordAt_ok hmap, Res.ok_bind, ← h.fn, ← State.word6]
  by_cases h0 : s.word6 b = 0
  · rw [if_pos h0, if_neg fun h => h.1 h0]; rfl
  rw [if_neg h0]
  cases sourceSelect (s.word6 b) with
  | false => rw [if_neg Bool.false_ne_true, if_pos ⟨h0, nofun⟩]; rfl
  | true => rw [if_pos rfl]; exact if_congr ⟨fun h => ⟨h0, fun _ => h⟩, fun h => h.2 rfl⟩ rfl rfl

end

/-! ### Format 6: what decides each block -/

theorem State.literals6_eq_count (s : State) (b : Nat) : s.literals6 b = Nat.count (fun k => s.word6 k = 0) b :=
  length_filter_range b

theorem State.literals6_succ (s : State) (b : Nat) :
    s.literals6 (b + 1) = s.literals6 b + if s.word6 b = 0 then 1 else 0 := by
  simp only [State.literals6_eq_count, Nat.count_succ]

/-- FD holds what pass 1 reads at block `b`: its map word (R222) and, if the block is one, its literal (R225). -/
def State.supplies6 (s : State) (b : Nat) : Prop :=
  14 + 2 * b + 2 ≤ s.fd.length ∧ (s.word6 b = 0 → 14 + 2 * s.blocks + 64 * (s.literals6 b + 1) ≤ s.fd.length)

/-- R233: FD holds what the frame needs exactly if it holds what each block reads. -/
theorem State.supplied6_iff (hn : 0 < s.blocks) : s.supplied6 ↔ ∀ b, b < s.blocks → s.supplies6 b := by
  have hlits := forall_room_iff (p := fun k => s.word6 k = 0) (a := 14 + 2 * s.blocks) (m := 64) (l := s.fd.length) s.blocks
  simp only [← State.literals6_eq_count] at hlits
  rw [State.supplied6, ← hlits]
  refine ⟨fun ⟨hmap, hlit⟩ b hb => ⟨by omega, hlit b hb⟩, fun h => ⟨?_, fun b hb => (h b hb).2⟩⟩
  have hlast := (h _ (Nat.sub_one_lt_of_lt hn)).1
  omega

/-- The clause of `State.boundedFrame6` for block `b`. -/
def State.bounds6 (s : State) (fn : Int) (b : Nat) : Prop :=
  s.word6 b ≠ 0 → (sourceSelect (s.word6 b) = true → 0 < fn) →
    s.inBounds (s.sourceAddr b (offsetOf (biasedOffset (s.word6 b)))) = true

/-- The literal cursor is past the literals of the blocks before block `b` (R222, R225). -/
def Recon.AtLiteral6 (s : State) (b : Nat) (r : Recon) : Prop :=
  r.At6 s b ∧ r.lc = 14 + 2 * s.blocks + 64 * s.literals6 b

theorem State.start6_atLiteral (hs : s.surf.fit s.pixels) : s.start6.AtLiteral6 s 0 :=
  ⟨⟨rfl, rfl, rfl, State.rotated6_fit hs⟩, rfl⟩

/-- R225: at a literal that FD holds, pass 1 shows it. -/
theorem f6Block1_literal {b : Nat} (h : r.AtLiteral6 s b) (hb : b < s.blocks) (hsup : s.supplies6 b) (h0 : s.word6 b = 0) :
    ∃ r', f6Block1 s r = .ok r' ∧ r'.AtLiteral6 s (b + 1) ∧
      (∀ row col, row < 8 → col < 8 → r'.surf.f.byte (s.anchor b + row * s.width + col) =
        s.fd.getD (14 + 2 * s.blocks + 64 * s.literals6 b + 8 * row + col) 0) ∧
      ∀ z, ¬inBlock s.width (s.anchor b) z → r'.surf.f.byte z = r.surf.f.byte z := by
  obtain ⟨hat, hlc⟩ := h
  obtain ⟨hmap, hlit⟩ := hsup
  obtain rfl := hat.block
  have hroom : r.lc + 64 ≤ s.fd.length := by have := hlit h0; omega
  obtain ⟨y, hy, hfit, -, hbytes, hout⟩ := copyLiteralBlock_ok (dst := .f) hat.fit hb hroom
  refine ⟨_, ?_, ⟨hat.writes (lc := r.lc + 64) hfit, ?_⟩, hlc ▸ hbytes, hout⟩
  · rw [hat.f6Block1_eq hmap, if_pos h0, literalWord_ok hy]
  · simp only [s.literals6_succ, if_pos h0]; omega

/-- Pass 1: a REF1 copy is never out of bounds, so only FD decides. -/
theorem passDecided_f6Block1 (s : State) :
    PassDecided s.blocks (f6Block1 s) (Recon.AtLiteral6 s) s.supplies6 .mapExhausted where
  completes := by
    intro b r hb h hsup
    by_cases h0 : s.word6 b = 0
    · obtain ⟨r', hr', hat', -⟩ := f6Block1_literal h hb hsup h0
      exact ⟨r', hr', hat'⟩
    · obtain ⟨hat, hlc⟩ := h
      obtain rfl := hat.block
      have hlits : s.literals6 (r.b + 1) = s.literals6 r.b := by rw [s.literals6_succ, if_neg h0, Nat.add_zero]
      rw [hat.f6Block1_eq hsup.1, if_neg h0]
      split
      · obtain ⟨y, hy, hfit, -⟩ := copyBlock_ok (dst := .f) (src := .r1) hat.fit hb nofun
        rw [copyWord_ok hy]
        exact ⟨_, rfl, hat.writes hfit, by rw [hlits]; exact hlc⟩
      · exact ⟨_, rfl, hat.nextWord, by rw [hlits]; exact hlc⟩
  raises := by
    rintro b r hb ⟨hat, hlc⟩ hneed
    rcases Nat.lt_or_ge s.fd.length (14 + 2 * b + 2) with hmap | hmap
    · exact hat.f6Block1_raise hmap
    · obtain ⟨h0, hlit⟩ := Classical.not_imp.1 fun h => hneed ⟨hmap, h⟩
      rw [hat.f6Block1_eq hmap, if_pos h0]
      exact literalWord_raise (by omega)

/-- Pass 2, its map words being there since pass 1 has read them: only the sources of the offset copies decide. -/
theorem passDecided_f6Block2 (hmap : 14 + 2 * s.blocks ≤ s.fd.length) :
    PassDecided s.blocks (f6Block2 s) (Recon.At6 s) (s.bounds6 (s.frameNo + 1)) .offsetOutOfBounds where
  completes := by
    intro b r hb hat hneed
    obtain rfl := hat.block
    rw [hat.f6Block2_eq (by omega)]
    split
    · next hexec =>
      obtain ⟨y, hy, hfit, -⟩ := copyBlockWithOffset_ok (dst := .f)
        (src := if sourceSelect (s.word6 r.b) then .r0 else .f) hat.fit hb (hneed hexec.1 hexec.2)
      rw [copyWord_ok hy]
      exact ⟨_, rfl, hat.writes hfit⟩
    · exact ⟨_, rfl, hat.nextWord⟩
  raises := by
    intro b r hb hat hneed
    obtain rfl := hat.block
    obtain ⟨hexec, hout⟩ : (s.word6 r.b ≠ 0 ∧ (sourceSelect (s.word6 r.b) = true → 0 < s.frameNo + 1)) ∧
        s.inBounds (s.sourceAddr r.b (offsetOf (biasedOffset (s.word6 r.b)))) = false := by
      simpa only [State.bounds6, Classical.not_imp, and_assoc, Bool.not_eq_true] using hneed
    rw [hat.f6Block2_eq (by omega), if_pos hexec]
    exact copyWord_raise hout

/-! ### Format 6: the frame -/

theorem format6_of_not_supplied (hs : s.surf.fit s.pixels) (hn : 0 < s.blocks) (h : ¬s.supplied6) :
    format6 s = raised .mapExhausted := by
  rw [State.supplied6_iff hn] at h
  rw [format6_eq hs, (passDecided_f6Block1 s).runPass_raise (State.start6_atLiteral hs) h]
  rfl

/-- With FD supplied, pass 1 completes and pass 2 starts at block 0. -/
theorem format6_of_supplied (hs : s.surf.fit s.pixels) (hn : 0 < s.blocks) (h : s.supplied6) :
    ∃ r : Recon, r.At6 s 0 ∧ format6 s = runPass (f6Block2 s) s.blocks r := by
  obtain ⟨r, hr, hat, -⟩ := (passDecided_f6Block1 s).runPass_ok (State.start6_atLiteral hs) ((State.supplied6_iff hn).1 h)
  exact ⟨_, hat.enter .f6Pass2, by rw [format6_eq hs, hr, Res.ok_bind]⟩

end

/-- Settles O31: pass 1 is decided by what FD supplies and pass 2 by the bounds, and a fault of pass 1 comes first. -/
theorem format6FrameOutcome : Obligations.Format6FrameOutcome := by
  intro s v hi hr hv hf
  have hn := hi.blocks_pos hv
  rw [exec_sendVideo_v6 v hv hf]
  refine ⟨fun hsup => ?_, fun hsup hbound => ?_, fun hsup hbound => ?_⟩
  · rw [format6_of_not_supplied hi.fit hn hsup]
    exact raiseIn_of_outside hr _
  all_goals obtain ⟨r, hat, hpass2⟩ := format6_of_supplied hi.fit hn hsup
  · rw [hpass2, (passDecided_f6Block2 hsup.1).runPass_raise hat hbound]
    exact raiseIn_of_outside hr _
  · obtain ⟨r', hr', hat'⟩ := (passDecided_f6Block2 hsup.1).runPass_ok hat hbound
    exact ⟨r'.surf, hat'.fit, by rw [hpass2, hr', ← State.commit_of_outside hr hat'.fn]; rfl⟩

end Sys2Proof.Machine
end

section
/-! The image and the references of a format-6 frame (O33 to O35). The blocks of the grid share no byte, so a literal stays as
it is shown; every block writes F only, so the references after the frame are those of the pre-step; and a block reads R0 only
from frame number 1 on, when the pre-step has just written it from F, and R1 only from frame number 2 on. -/

namespace Sys2Proof.Machine

section
variable {s : State} {r : Recon}

/-! ### The image of a frame of literals -/

/-- R190: the blocks of the grid share no address. -/
theorem State.block_eq_of_inBlock {b b' z : Nat} (hb : b < s.blocks) (hb' : b' < s.blocks)
    (hz : inBlock s.width (s.anchor b) z) (hz' : inBlock s.width (s.anchor b') z) : b = b' := by
  obtain ⟨row, hrow, hlo, hhi⟩ := hz
  obtain ⟨row', hrow', hlo', hhi'⟩ := hz'
  obtain ⟨col, hcol⟩ := Nat.exists_eq_add_of_le hlo
  obtain ⟨col', hcol'⟩ := Nat.exists_eq_add_of_le hlo'
  rw [s.anchor_eq_pixel] at hcol hcol'
  have hsame : (8 * (b % s.wBlk.toNat) + col) + s.width * (8 * (b / s.wBlk.toNat) + row) =
      (8 * (b' % s.wBlk.toNat) + col') + s.width * (8 * (b' / s.wBlk.toNat) + row') := by linarith
  have hle := State.anchor_column_le hb
  have hle' := State.anchor_column_le hb'
  rw [s.anchor_eq_pixel] at hhi hhi'
  obtain ⟨hcols, hrows⟩ := pixel_inj (by omega) (by omega) hsame
  have hmod : b % s.wBlk.toNat = b' % s.wBlk.toNat := by omega
  have hdiv : b / s.wBlk.toNat = b' / s.wBlk.toNat := by omega
  rw [← Nat.div_add_mod b s.wBlk.toNat, ← Nat.div_add_mod b' s.wBlk.toNat, hmod, hdiv]

/-- The first `k` blocks of `m` hold the first `k` literals of FD. -/
def State.ShowsLiterals (s : State) (k : Nat) (m : Memory) : Prop :=
  ∀ b row col, b < k → row < 8 → col < 8 →
    m.byte (s.anchor b + row * s.width + col) = s.fd.getD (14 + 2 * s.blocks + 64 * b + 8 * row + col) 0

theorem literals6_of_literal_frame (hlit : ∀ b, b < s.blocks → s.word6 b = 0) {k : Nat} (hk : k ≤ s.blocks) :
    s.literals6 k = k := by
  rw [s.literals6_eq_count]
  exact Nat.count_of_forall fun b hb => hlit b (hb.trans_le hk)

theorem supplied6_of_literal_frame (hlit : ∀ b, b < s.blocks → s.word6 b = 0) (hfd : 14 + 66 * s.blocks ≤ s.fd.length) :
    s.supplied6 := by
  rw [State.supplied6, literals6_of_literal_frame hlit le_rfl]
  omega

/-- Pass 1: each block shows its literal and leaves those shown before (R225). -/
theorem pass1_shows_literals (hlit : ∀ b, b < s.blocks → s.word6 b = 0) (hsup : ∀ b, b < s.blocks → s.supplies6 b)
    (hr : r.AtLiteral6 s 0) : ∃ r', runPass (f6Block1 s) s.blocks r = .ok r' ∧ r'.AtLiteral6 s s.blocks ∧
      s.ShowsLiterals s.blocks r'.surf.f := by
  refine runPass_ok (fun k r => r.AtLiteral6 s k ∧ s.ShowsLiterals k r.surf.f) s.blocks ?_
    ⟨hr, fun b _ _ hb => absurd hb b.not_lt_zero⟩
  rintro k r hk ⟨hat, hshown⟩
  obtain ⟨r', hr', hat', hbytes, hout⟩ := f6Block1_literal hat hk (hsup k hk) (hlit k hk)
  rw [literals6_of_literal_frame hlit hk.le] at hbytes
  refine ⟨r', hr', hat', fun b row col hb hrow hcol => ?_⟩
  rcases Nat.lt_succ_iff_lt_or_eq.1 hb with hlt | rfl
  · rw [hout _ fun hin => hlt.ne (State.block_eq_of_inBlock (hlt.trans hk) hk (inBlock_of_pixel hrow hcol) hin)]
    exact hshown b row col hlt hrow hcol
  · exact hbytes row col hrow hcol

/-- Pass 2: the words of literal blocks are no-operations (R228). -/
theorem pass2_keeps_literals (hlit : ∀ b, b < s.blocks → s.word6 b = 0) (hmap : 14 + 2 * s.blocks ≤ s.fd.length)
    (hr : r.At6 s 0) : ∃ r', runPass (f6Block2 s) s.blocks r = .ok r' ∧ r'.At6 s s.blocks ∧ r'.surf = r.surf := by
  refine runPass_ok (fun k r' => r'.At6 s k ∧ r'.surf = r.surf) s.blocks ?_ ⟨hr, rfl⟩
  rintro k r' hk ⟨hat, hsurf⟩
  have hword : ¬(s.word6 k ≠ 0 ∧ (sourceSelect (s.word6 k) = true → 0 < s.frameNo + 1)) := fun h => h.1 (hlit k hk)
  rw [hat.f6Block2_eq (by omega), if_neg hword]
  exact ⟨_, rfl, hat.nextWord, hsurf⟩

/-! ### Every block writes F only -/

/-- The references are `x0` and `x1`. -/
def Surfaces.HasRefs (x0 x1 : Memory) (x : Surfaces) : Prop := x.r0 = x0 ∧ x.r1 = x1

section
variable {x0 x1 : Memory} {x : Surfaces}

theorem Surfaces.HasRefs.set (h : x.HasRefs x0 x1) (m : Memory) : (x.set m .f).HasRefs x0 x1 := h

theorem copyLiteralBlock_hasRefs (h : x.HasRefs x0 x1) (b lc : Nat) :
    Res.All (Surfaces.HasRefs x0 x1) (copyLiteralBlock s .f b lc x) :=
  Res.all_ite nofun (Res.all_foldlM (fun _ _ hy => Res.all_bind fun m => Res.all_ok (hy.set m)) _ h)

theorem copyRow_hasRefs (h : x.HasRefs x0 x1) (src : Role) (a d : Nat) :
    Res.All (Surfaces.HasRefs x0 x1) (copyRow .f src a d x) :=
  Res.all_bind fun _ => Res.all_bind fun m => Res.all_ok (h.set m)

theorem copyBlockWithOffset_hasRefs (h : x.HasRefs x0 x1) (src : Role) (b : Nat) (off : Int) :
    Res.All (Surfaces.HasRefs x0 x1) (copyBlockWithOffset s .f src b off x) :=
  Res.all_ite (show Res.All _ (copyRows ..) from Res.all_foldlM (fun _ _ hy => copyRow_hasRefs hy _ _ _) _ h) nofun

theorem copyWord_hasRefs (h : r.surf.HasRefs x0 x1) (src : Role) (off : Int) :
    Res.All (fun r' => r'.surf.HasRefs x0 x1) (copyWord .f src off s r) :=
  (copyBlockWithOffset_hasRefs h _ _ _).bind fun _ hy => Res.all_ok hy

theorem f6Block1_hasRefs (h : r.surf.HasRefs x0 x1) : Res.All (fun r' => r'.surf.HasRefs x0 x1) (f6Block1 s r) :=
  Res.all_bind fun _ => Res.all_ite ((copyLiteralBlock_hasRefs h _ _).bind fun _ hy => Res.all_ok hy)
    (Res.all_ite (copyWord_hasRefs h .r1 0) (Res.all_ok h))

theorem f6Block2_hasRefs (h : r.surf.HasRefs x0 x1) : Res.All (fun r' => r'.surf.HasRefs x0 x1) (f6Block2 s r) :=
  Res.all_bind fun _ => Res.all_ite (Res.all_ok h) (Res.all_ite
    (Res.all_ite (copyWord_hasRefs h .r0 _) (Res.all_ok h)) (copyWord_hasRefs h .f _))

theorem runPass_hasRefs {block : Recon → Res Recon}
    (hblock : ∀ {r : Recon}, r.surf.HasRefs x0 x1 → Res.All (fun r' => r'.surf.HasRefs x0 x1) (block r))
    (n : Nat) (h : r.surf.HasRefs x0 x1) : Res.All (fun r' => r'.surf.HasRefs x0 x1) (runPass block n r) :=
  fun _ => runPass_inv (fun r => r.surf.HasRefs x0 x1) (fun _ r' hr hb => hblock hr r' hb) n h

end

/-- R232: the references after the frame are those of the pre-step. -/
theorem format6_hasRefs (hs : s.surf.fit s.pixels) :
    Res.All (fun r => r.surf.HasRefs s.rotated6.r0 s.rotated6.r1) (format6 s) := by
  rw [format6_eq hs]
  exact (runPass_hasRefs f6Block1_hasRefs _ ⟨rfl, rfl⟩).bind fun _ h => runPass_hasRefs f6Block2_hasRefs _ h

end

/-! ### What a frame reads -/

/-- The two rules raise the same fault, or complete with related values. -/
def Res.Agree {α : Type} (R : α → α → Prop) : Res α → Res α → Prop
  | .ok a, .ok b => R a b
  | .error d, .error e => d = e
  | _, _ => False

section
variable {α β : Type} {R : α → α → Prop} {Q : β → β → Prop}

theorem Res.agree_refl (x : Res α) : Res.Agree Eq x x := by
  cases x <;> exact rfl

theorem Res.Agree.bind {x y : Res α} {f g : α → Res β} (h : Res.Agree R x y)
    (hf : ∀ a b, R a b → Res.Agree Q (f a) (g b)) :
    Res.Agree Q (x >>= f) (y >>= g) := by
  cases x <;> cases y
  case ok.ok a b => exact hf a b h
  case error.error d e => exact h
  all_goals exact h.elim

/-- Both rules start with the same read. -/
theorem Res.agree_bind {x : Res α} {f g : α → Res β} (hf : ∀ a, Res.Agree Q (f a) (g a)) :
    Res.Agree Q (x >>= f) (x >>= g) :=
  (Res.agree_refl x).bind fun a _ h => h ▸ hf a

theorem Res.agree_ite {c : Prop} [Decidable c] {x y x' y' : Res α} (h : c → Res.Agree R x x')
    (h' : ¬c → Res.Agree R y y') : Res.Agree R (if c then x else y) (if c then x' else y') := by
  split
  · next hc => exact h hc
  · next hc => exact h' hc

theorem Res.agree_foldlM {f : β → α → Res β} (hf : ∀ b b' a, Q b b' → Res.Agree Q (f b a) (f b' a)) (xs : List α)
    {b b' : β} (h : Q b b') : Res.Agree Q (xs.foldlM f b) (xs.foldlM f b') := by
  induction xs generalizing b b' with
  | nil => exact h
  | cons a xs ih =>
    rw [List.foldlM_cons, List.foldlM_cons]
    exact (hf b b' a h).bind fun _ _ => ih

end

/-- The surfaces that the blocks of format 6 read with frame number `fn` (R225, R226, R229, R230). -/
def Role.ReadBy6 (fn : Int) : Role → Prop
  | .f => True
  | .r0 => 0 < fn
  | .r1 => 1 < fn

/-- The two have the same surfaces as far as the blocks of format 6 read them. -/
def Surfaces.SameRead6 (fn : Int) (x y : Surfaces) : Prop := ∀ k, k.ReadBy6 fn → x.get k = y.get k

/-- Two SendVideos in progress that differ only in surfaces that the blocks do not read. -/
def Recon.SameRead6 (r q : Recon) : Prop := ∃ y, q = { r with surf := y } ∧ r.surf.SameRead6 r.fn y

section
variable {s : State} {fn : Int} {x y : Surfaces} {r q : Recon}

theorem Surfaces.SameRead6.set (h : x.SameRead6 fn y) (m : Memory) : (x.set m .f).SameRead6 fn (y.set m .f)
  | .f, _ => rfl
  | .r0, hk => h .r0 hk
  | .r1, hk => h .r1 hk

theorem copyRow_agree (h : x.SameRead6 fn y) {src : Role} (hsrc : src.ReadBy6 fn) (a d : Nat) :
    Res.Agree (Surfaces.SameRead6 fn) (copyRow .f src a d x) (copyRow .f src a d y) := by
  rw [copyRow, copyRow, h src hsrc, h .f trivial]
  exact Res.agree_bind fun _ => Res.agree_bind fun m => h.set m

theorem copyRows_agree (h : x.SameRead6 fn y) {src : Role} (hsrc : src.ReadBy6 fn) (w a d : Nat) :
    Res.Agree (Surfaces.SameRead6 fn) (copyRows .f src w a d x) (copyRows .f src w a d y) :=
  Res.agree_foldlM (f := fun y r => copyRow .f src (a + r * w) (d + r * w) y) (fun _ _ _ h => copyRow_agree h hsrc _ _) _ h

theorem copyBlockWithOffset_agree (h : x.SameRead6 fn y) {src : Role} (hsrc : src.ReadBy6 fn) (b : Nat) (off : Int) :
    Res.Agree (Surfaces.SameRead6 fn) (copyBlockWithOffset s .f src b off x) (copyBlockWithOffset s .f src b off y) :=
  Res.agree_ite (fun _ => copyRows_agree h hsrc _ _ _) fun _ => rfl

theorem copyLiteralBlock_agree (h : x.SameRead6 fn y) (b lc : Nat) :
    Res.Agree (Surfaces.SameRead6 fn) (copyLiteralBlock s .f b lc x) (copyLiteralBlock s .f b lc y) := by
  refine Res.agree_ite (fun _ => rfl) fun _ => Res.agree_foldlM (fun x y _ h => ?_) _ h
  rw [h .f trivial]
  exact Res.agree_bind fun m => h.set m

theorem copyWord_agree (h : r.SameRead6 q) {src : Role} (hsrc : src.ReadBy6 r.fn) (off : Int) :
    Res.Agree Recon.SameRead6 (copyWord .f src off s r) (copyWord .f src off s q) := by
  obtain ⟨y, rfl, h⟩ := h
  exact (copyBlockWithOffset_agree h hsrc _ _).bind fun _ u hu => ⟨u, rfl, hu⟩

theorem literalWord_agree (h : r.SameRead6 q) :
    Res.Agree Recon.SameRead6 (literalWord .f s r) (literalWord .f s q) := by
  obtain ⟨y, rfl, h⟩ := h
  exact (copyLiteralBlock_agree h _ _).bind fun _ u hu => ⟨u, rfl, hu⟩

theorem Recon.SameRead6.nextWord (h : r.SameRead6 q) : r.nextWord.SameRead6 q.nextWord := by
  obtain ⟨y, rfl, h⟩ := h
  exact ⟨y, rfl, h⟩

theorem Recon.SameRead6.enter (h : r.SameRead6 q) (p : Pass) (mc : Nat) : (r.enter p mc).SameRead6 (q.enter p mc) := by
  obtain ⟨y, rfl, h⟩ := h
  exact ⟨y, rfl, h⟩

theorem Recon.SameRead6.cursors (h : r.SameRead6 q) : q.mc = r.mc ∧ q.fn = r.fn := by
  obtain ⟨y, rfl, -⟩ := h
  exact ⟨rfl, rfl⟩

/-- R226: an F6.REF1 that is not gated reads R1. -/
theorem f6Block1_agree (h : r.SameRead6 q) : Res.Agree Recon.SameRead6 (f6Block1 s r) (f6Block1 s q) := by
  obtain ⟨hmc, hfn⟩ := h.cursors
  unfold f6Block1 f6Ref1
  rw [hmc, hfn]
  exact Res.agree_bind fun _ => Res.agree_ite (fun _ => literalWord_agree h) fun _ =>
    Res.agree_ite (fun hfn => copyWord_agree h (src := .r1) hfn 0) fun _ => h.nextWord

/-- R229, R230: an F6.INTER that is not gated reads R0, and an F6.INTRA reads F. -/
theorem f6Block2_agree (h : r.SameRead6 q) : Res.Agree Recon.SameRead6 (f6Block2 s r) (f6Block2 s q) := by
  obtain ⟨hmc, hfn⟩ := h.cursors
  unfold f6Block2 f6Inter
  rw [hmc, hfn]
  exact Res.agree_bind fun _ => Res.agree_ite (fun _ => h.nextWord) fun _ => Res.agree_ite
    (fun _ => Res.agree_ite (fun hfn => copyWord_agree h (src := .r0) hfn _) fun _ => h.nextWord)
    fun _ => copyWord_agree h (src := .f) trivial _

theorem runPass_agree {block : Recon → Res Recon}
    (hblock : ∀ {r q : Recon}, r.SameRead6 q → Res.Agree Recon.SameRead6 (block r) (block q)) (n : Nat)
    (h : r.SameRead6 q) : Res.Agree Recon.SameRead6 (runPass block n r) (runPass block n q) := by
  induction n generalizing r q with
  | zero => exact h
  | succ n ih => exact (hblock h).bind fun _ _ => ih

/-- R223, R232: up to frame number 1, the only reference that the blocks read is R0, which the pre-step has written from F. -/
theorem start6_sameRead (hf : x.f = s.surf.f) (hfn : s.frameNo ≤ 0) :
    s.start6.SameRead6 (State.start6 { s with surf := x }) := by
  refine ⟨State.rotated6 { s with surf := x }, rfl, fun k hk => ?_⟩
  cases k with
  | f => exact hf.symm
  | r0 => exact (if_pos hk).trans (hf.symm.trans (if_pos hk).symm)
  | r1 => exact absurd (show 1 < s.frameNo + 1 from hk) (by omega)

theorem format6_agree (hs : s.surf.fit s.pixels) (hx : x.fit s.pixels) (hf : x.f = s.surf.f) (hfn : s.frameNo ≤ 0) :
    Res.Agree Recon.SameRead6 (format6 s) (format6 { s with surf := x }) := by
  rw [format6_eq hs, format6_eq (s := { s with surf := x }) hx]
  exact (runPass_agree f6Block1_agree _ (start6_sameRead hf hfn)).bind fun _ _ h =>
    runPass_agree f6Block2_agree _ (h.enter _ _)

end

/-! ### The obligations -/

/-- Settles O33: pass 1 shows a literal at each block, and pass 2 does nothing. -/
theorem format6LiteralFrameShowsFrameData : Obligations.Format6LiteralFrameShowsFrameData := by
  intro s v hi hv hf hlit hfd
  have hsup : s.supplied6 := supplied6_of_literal_frame hlit hfd
  obtain ⟨r, hr, hat, hshown⟩ := pass1_shows_literals hlit ((State.supplied6_iff (hi.blocks_pos hv)).1 hsup)
    (State.start6_atLiteral hi.fit)
  obtain ⟨r', hr', -, hsurf⟩ := pass2_keeps_literals hlit hsup.1 (hat.1.enter .f6Pass2)
  refine ⟨s.commit r', ?_, ?_⟩
  · rw [exec_sendVideo_v6 v hv hf, format6_eq hi.fit, hr, Res.ok_bind, hr']
    rfl
  · rw [State.commit_surf, hsurf]
    exact hshown

/-- Settles O34: a frame that completes is committed, with the references of the pre-step. -/
theorem format6RotatesReferences : Obligations.Format6RotatesReferences := by
  intro s t v hi hf hv ht hfn
  rw [exec_sendVideo_v6 v hv hf] at ht
  obtain ⟨r, hr, rfl⟩ | ⟨c, -, rfl⟩ := finishVideo_next ht
  · obtain ⟨h0, h1⟩ := format6_hasRefs hi.fit r hr
    rw [hfn]
    exact ⟨h0, h1⟩
  · rw [State.raise_frameNo] at hfn
    omega

/-- Settles O35: the two reconstructors agree, and before InitVideo both machines take the fault of R220. -/
theorem earlyFormat6FramesIgnoreReferences : Obligations.EarlyFormat6FramesIgnoreReferences := by
  intro s x v hi hx hxf hf hfn
  rcases Bool.eq_false_or_eq_true s.vidInit with hv | hv
  case inr =>
    exact ⟨_, _, exec_sendVideo_of_unready v (.inl hv), exec_sendVideo_of_unready (s := { s with surf := x }) v (.inl hv),
      hxf.symm, rfl, rfl⟩
  case inl =>
    have hagree := format6_agree hi.fit hx hxf hfn
    have hrun := format6_unstopped hi.fit
    rw [exec_sendVideo_v6 v hv hf, exec_sendVideo_v6 (s := { s with surf := x }) v hv hf]
    cases h : format6 s <;> cases h' : format6 { s with surf := x } <;> rw [h, h'] at hagree
    case ok.ok r q =>
      obtain ⟨y, rfl, hsame⟩ := hagree
      exact ⟨_, _, rfl, rfl, hsame .f trivial, rfl, rfl⟩
    case error.error d e =>
      obtain rfl : d = e := hagree
      cases d with
      | raised c => exact ⟨_, _, rfl, rfl, hxf.symm, rfl, rfl⟩
      | stopped f => exact absurd h (hrun f)
    all_goals exact hagree.elim

end Sys2Proof.Machine
end

section
/-! A format-10 frame is decided by its data (O32). The skip stream has a closed form, so in each pass the block's flag is
that of R215 as long as SM lasts; pass 1 then needs what R249 counts, pass 2 the bounds of its copies, and pass 3 nothing more. -/

namespace Sys2Proof.Machine

section
variable {s : State} {r : Recon} {b : Nat} {p : Pass} {k : SkipStream}

/-! ### Format 10: what each block does -/

/-- At block `b` of pass `p` of format 10: the skip stream has delivered the flags of the blocks before it, and the working
copies fit. -/
structure Recon.At10 (s : State) (p : Pass) (b : Nat) (r : Recon) : Prop where
  pass : r.pass = p
  block : r.b = b
  fit : r.surf.fit s.pixels
  delivered : r.skip.Delivered s.sm b

theorem Recon.At10.enter (h : r.At10 s p b) (p' : Pass) (mc : Nat) : (r.enter p' mc).At10 s p' 0 :=
  ⟨rfl, rfl, h.fit, SkipStream.delivered_reset _⟩

/-- What a block leaves whose flag left `k` and that wrote `y`, whatever it did with the other two cursors. -/
theorem Recon.At10.finishes {mc lc : Nat} {y : Surfaces} (h : r.At10 s p b) (hk : k.Delivered s.sm (b + 1))
    (hy : y.fit s.pixels) :
    Recon.At10 s p (b + 1) { r with b := r.b + 1, mc := mc, lc := lc, wordDue := false, skip := k, surf := y } :=
  ⟨h.pass, congrArg (· + 1) h.block, hy, hk⟩

/-- The map cursor is past the words of the kept blocks before block `b` (R240). -/
def Recon.AtWord10 (s : State) (p : Pass) (b : Nat) (r : Recon) : Prop := r.At10 s p b ∧ r.mc = 2 * s.kept10 b

theorem f10Block1_of_skipped (hk : r.skip.next s.sm = .ok (true, k)) :
    f10Block1 s r = .ok { r with b := r.b + 1, wordDue := false, skip := k } := by
  rw [f10Block1, hk, Res.ok_bind, if_pos rfl, skipBlock_ok hk]

theorem f10Block2_of_skipped (hk : r.skip.next s.sm = .ok (true, k)) :
    f10Block2 s r = .ok { r with b := r.b + 1, wordDue := false, skip := k } := by
  rw [f10Block2, hk, Res.ok_bind, if_pos rfl, skipBlock_ok hk]

theorem f10Block3_of_skipped (hk : r.skip.next s.sm = .ok (true, k)) :
    f10Block3 s r = .ok { r with b := r.b + 1, wordDue := false, skip := k } := by
  rw [f10Block3, hk, Res.ok_bind, if_pos rfl, skipBlock_ok hk]

theorem f10Block1_of_exhausted (hk : r.skip.next s.sm = raised .mapExhausted) : f10Block1 s r = raised .mapExhausted := by
  rw [f10Block1, hk]; rfl

theorem f10Block1_of_kept (hp : r.pass = .f10Pass1) (hk : r.skip.next s.sm = .ok (false, k)) :
    f10Block1 s r = f10Word1 s { r with wordDue := true, skip := k } := by
  rw [f10Block1, hk, Res.ok_bind, if_neg Bool.false_ne_true, keepBlock_ok (by simp [hp]) hk]; rfl

theorem f10Block2_of_kept (hp : r.pass = .f10Pass2) (hk : r.skip.next s.sm = .ok (false, k)) :
    f10Block2 s r = f10Word2 s { r with wordDue := true, skip := k } := by
  rw [f10Block2, hk, Res.ok_bind, if_neg Bool.false_ne_true, keepBlock_ok (by simp [hp]) hk]; rfl

theorem f10Block3_of_kept (hk : r.skip.next s.sm = .ok (false, k)) : f10Block3 s r = showBlock s r := by
  rw [f10Block3, hk, Res.ok_bind, if_neg Bool.false_ne_true]

/-- R241, R242: pass 1 at a kept block whose map word DM holds. -/
theorem Recon.AtWord10.f10Block1_eq (h : r.AtWord10 s .f10Pass1 b) (hk : r.skip.next s.sm = .ok (false, k))
    (hmap : 2 * s.kept10 b + 2 ≤ s.dm.length) : f10Block1 s r =
      if s.word10 b = 0 then literalWord .r0 s { r with wordDue := true, skip := k }
      else .ok (Recon.nextWord { r with wordDue := true, skip := k }) := by
  simp only [f10Block1_of_kept h.1.pass hk, f10Word1, h.2, mapWordAt_ok hmap]; rfl

theorem Recon.AtWord10.f10Block1_raise (h : r.AtWord10 s .f10Pass1 b) (hk : r.skip.next s.sm = .ok (false, k))
    (hmap : s.dm.length < 2 * s.kept10 b + 2) : f10Block1 s r = raised .mapExhausted := by
  simp only [f10Block1_of_kept h.1.pass hk, f10Word1, h.2, mapWordAt_raise hmap]; rfl

/-- R243 to R245: pass 2 at a kept block whose map word DM holds. -/
theorem Recon.AtWord10.f10Block2_eq (h : r.AtWord10 s .f10Pass2 b) (hk : r.skip.next s.sm = .ok (false, k))
    (hmap : 2 * s.kept10 b + 2 ≤ s.dm.length) : f10Block2 s r =
      if s.word10 b = 0 then .ok (Recon.nextWord { r with wordDue := true, skip := k })
      else copyWord .r0 (if sourceSelect (s.word10 b) then .r1 else .r0) (offsetOf (biasedOffset (s.word10 b))) s
        { r with wordDue := true, skip := k } := by
  simp only [f10Block2_of_kept h.1.pass hk, f10Word2, h.2, mapWordAt_ok hmap, Res.ok_bind]
  refine ite_congr rfl (fun _ => rfl) fun _ => ?_
  rw [← State.word10]
  cases sourceSelect (s.word10 b) <;> rfl

/-! ### Format 10: what decides each block -/

theorem State.kept10_eq_count (s : State) (b : Nat) : s.kept10 b = Nat.count (fun k => skippedAt s.sm k = false) b := by
  rw [← length_filter_range]
  simp only [State.kept10, Bool.decide_eq_false]

theorem State.literals10_eq_count (s : State) (b : Nat) :
    s.literals10 b = Nat.count (fun k => skippedAt s.sm k = false ∧ s.word10 k = 0) b := by
  rw [← length_filter_range]
  simp only [State.literals10, Bool.decide_and, Bool.decide_eq_false]
  rfl

theorem State.counts10_of_skipped (h : skippedAt s.sm b = true) :
    s.kept10 (b + 1) = s.kept10 b ∧ s.literals10 (b + 1) = s.literals10 b := by
  simp [State.kept10_eq_count, State.literals10_eq_count, Nat.count_succ, h]

theorem State.counts10_of_kept (h : skippedAt s.sm b = false) : s.kept10 (b + 1) = s.kept10 b + 1 ∧
    s.literals10 (b + 1) = s.literals10 b + if s.word10 b = 0 then 1 else 0 := by
  simp [State.kept10_eq_count, State.literals10_eq_count, Nat.count_succ, h]

/-- The data holds what pass 1 reads at block `b`: its flag (R213), its map word if it is kept (R240), and its literal if it is
one (R242). -/
structure State.Supplies10 (s : State) (b : Nat) : Prop where
  flag : b < 16 * (s.sm.length / 2)
  word : skippedAt s.sm b = false → 2 * s.kept10 b + 2 ≤ s.dm.length
  literal : skippedAt s.sm b = false → s.word10 b = 0 → 14 + 64 * (s.literals10 b + 1) ≤ s.fd.length

/-- R249: the data holds what the frame needs exactly if it holds what each block reads. -/
theorem State.supplied10_iff (hn : 0 < s.blocks) : s.supplied10 ↔ ∀ b, b < s.blocks → s.Supplies10 b := by
  have hkept := forall_room_iff (p := fun k => skippedAt s.sm k = false) (a := 0) (m := 2) (l := s.dm.length) s.blocks
  have hlits := forall_room_iff (p := fun k => skippedAt s.sm k = false ∧ s.word10 k = 0) (a := 14) (m := 64)
    (l := s.fd.length) s.blocks
  simp only [← State.kept10_eq_count, ← State.literals10_eq_count] at hkept hlits
  rw [State.supplied10, ← hlits]
  refine ⟨fun ⟨hflag, hword, hlit⟩ b hb => ⟨by omega, fun hk => ?_, fun hk h0 => hlit b hb ⟨hk, h0⟩⟩,
    fun h => ⟨?_, ?_, fun b hb hk => (h b hb).literal hk.1 hk.2⟩⟩
  · have hroom := hkept.2 (fun _ => by omega) b hb hk
    omega
  · have hlast := (h _ (Nat.sub_one_lt_of_lt hn)).flag
    omega
  · have hroom := hkept.1 fun b hb hk => by have := (h b hb).word hk; omega
    omega

/-- The clause of `State.boundedFrame10` for block `b`. -/
def State.bounds10 (s : State) (b : Nat) : Prop :=
  skippedAt s.sm b = false → s.word10 b ≠ 0 →
    s.inBounds (s.sourceAddr b (offsetOf (biasedOffset (s.word10 b)))) = true

/-- The literal cursor is past the literals before block `b` (R242), and the flags delivered so far were those of SM. -/
def Recon.AtLiteral10 (s : State) (b : Nat) (r : Recon) : Prop :=
  r.AtWord10 s .f10Pass1 b ∧ r.lc = 14 + 64 * s.literals10 b ∧ b ≤ 16 * (s.sm.length / 2)

theorem openFormat10_atLiteral (hs : s.surf.fit s.pixels) : (openFormat10 s).AtLiteral10 s 0 :=
  ⟨⟨⟨rfl, rfl, hs, SkipStream.delivered_reset _⟩, rfl⟩, rfl, Nat.zero_le _⟩

/-- Pass 1 writes literals only, so only SM, DM and FD decide. -/
theorem passDecided_f10Block1 (s : State) :
    PassDecided s.blocks (f10Block1 s) (Recon.AtLiteral10 s) s.Supplies10 .mapExhausted where
  completes := by
    rintro b r hb ⟨hword, hlc, -⟩ hsup
    obtain ⟨hat, hmc⟩ := id hword
    obtain rfl := hat.block
    obtain ⟨k, hk, hdel⟩ := hat.delivered.next_ok hsup.flag
    cases hskip : skippedAt s.sm r.b with
    | true =>
      obtain ⟨hkept, hlits⟩ := State.counts10_of_skipped hskip
      exact ⟨_, f10Block1_of_skipped (hskip ▸ hk),
        ⟨hat.finishes hdel hat.fit, hkept ▸ hmc⟩, hlits ▸ hlc, hsup.flag⟩
    | false =>
      obtain ⟨hkept, hlits⟩ := State.counts10_of_kept hskip
      have hmc' : r.mc + 2 = 2 * s.kept10 (r.b + 1) := by omega
      rw [hword.f10Block1_eq (hskip ▸ hk) (hsup.word hskip)]
      by_cases h0 : s.word10 r.b = 0
      · have hroom : r.lc + 64 ≤ s.fd.length := by have := hsup.literal hskip h0; omega
        obtain ⟨y, hy, hfit, -⟩ := copyLiteralBlock_ok (dst := .r0) hat.fit hb hroom
        rw [if_pos h0, literalWord_ok (r := { r with wordDue := true, skip := k }) hy]
        exact ⟨_, rfl, ⟨hat.finishes hdel hfit, hmc'⟩, by simp only [hlits, if_pos h0]; omega, hsup.flag⟩
      · rw [if_neg h0]
        exact ⟨_, rfl, ⟨hat.finishes hdel hat.fit, hmc'⟩, by rw [hlits, if_neg h0]; exact hlc, hsup.flag⟩
  raises := by
    rintro b r hb ⟨hword, hlc, hle⟩ hneed
    obtain rfl := hword.1.block
    rcases Nat.lt_or_eq_of_le hle with hflag | hflag
    · obtain ⟨k, hk, -⟩ := hword.1.delivered.next_ok hflag
      have hskip : skippedAt s.sm r.b = false := Bool.eq_false_iff.2 fun hskip =>
        hneed ⟨hflag, fun h => absurd (hskip.symm.trans h) nofun, fun h => absurd (hskip.symm.trans h) nofun⟩
      rw [hskip] at hk
      rcases Nat.lt_or_ge s.dm.length (2 * s.kept10 r.b + 2) with hmap | hmap
      · exact hword.f10Block1_raise hk hmap
      · obtain ⟨h0, hlit⟩ := Classical.not_imp.1 fun h => hneed ⟨hflag, fun _ => hmap, fun _ => h⟩
        rw [hword.f10Block1_eq hk hmap, if_pos h0]
        exact literalWord_raise (show s.fd.length < r.lc + 64 by omega)
    · have hdel := hword.1.delivered
      rw [hflag] at hdel
      exact f10Block1_of_exhausted hdel.next_raise

/-- Pass 2, its flags and map words being there since pass 1 has read them: only the sources of the offset copies decide. -/
theorem passDecided_f10Block2 (hsup : ∀ b, b < s.blocks → s.Supplies10 b) :
    PassDecided s.blocks (f10Block2 s) (Recon.AtWord10 s .f10Pass2) s.bounds10 .offsetOutOfBounds where
  completes := by
    intro b r hb hword hneed
    obtain ⟨hat, hmc⟩ := id hword
    obtain rfl := hat.block
    obtain ⟨k, hk, hdel⟩ := hat.delivered.next_ok (hsup _ hb).flag
    cases hskip : skippedAt s.sm r.b with
    | true =>
      obtain ⟨hkept, -⟩ := State.counts10_of_skipped hskip
      exact ⟨_, f10Block2_of_skipped (hskip ▸ hk), hat.finishes hdel hat.fit, hkept ▸ hmc⟩
    | false =>
      obtain ⟨hkept, -⟩ := State.counts10_of_kept hskip
      have hmc' : r.mc + 2 = 2 * s.kept10 (r.b + 1) := by omega
      rw [hword.f10Block2_eq (hskip ▸ hk) ((hsup _ hb).word hskip)]
      by_cases h0 : s.word10 r.b = 0
      · rw [if_pos h0]
        exact ⟨_, rfl, hat.finishes hdel hat.fit, hmc'⟩
      · obtain ⟨y, hy, hfit, -⟩ := copyBlockWithOffset_ok (dst := .r0)
          (src := if sourceSelect (s.word10 r.b) then .r1 else .r0) hat.fit hb (hneed hskip h0)
        rw [if_neg h0, copyWord_ok (r := { r with wordDue := true, skip := k }) hy]
        exact ⟨_, rfl, hat.finishes hdel hfit, hmc'⟩
  raises := by
    intro b r hb hword hneed
    obtain rfl := hword.1.block
    obtain ⟨hskip, h0, hout⟩ : skippedAt s.sm r.b = false ∧ s.word10 r.b ≠ 0 ∧
        s.inBounds (s.sourceAddr r.b (offsetOf (biasedOffset (s.word10 r.b)))) = false := by
      simpa only [State.bounds10, Classical.not_imp, Bool.not_eq_true] using hneed
    obtain ⟨k, hk, -⟩ := hword.1.delivered.next_ok (hsup _ hb).flag
    rw [hword.f10Block2_eq (hskip ▸ hk) ((hsup _ hb).word hskip), if_neg h0]
    exact copyWord_raise hout

/-- Pass 3, its flags being there: the copies are co-located, so never out of bounds (R246). -/
theorem runPass_f10Block3_ok (hsup : ∀ b, b < s.blocks → s.Supplies10 b) (hr : r.At10 s .f10Pass3 0) :
    ∃ r', runPass (f10Block3 s) s.blocks r = .ok r' ∧ r'.At10 s .f10Pass3 s.blocks := by
  refine runPass_ok (Recon.At10 s .f10Pass3) s.blocks (fun b r hb hat => ?_) hr
  obtain rfl := hat.block
  obtain ⟨k, hk, hdel⟩ := hat.delivered.next_ok (hsup _ hb).flag
  cases hskip : skippedAt s.sm r.b with
  | true => exact ⟨_, f10Block3_of_skipped (hskip ▸ hk), hat.finishes hdel hat.fit⟩
  | false =>
    obtain ⟨y, hy, hfit, -⟩ := copyBlock_ok (dst := .f) (src := .r0) hat.fit hb nofun
    rw [hskip] at hk
    exact ⟨_, (f10Block3_of_kept hk).trans (showBlock_ok hk hy), hat.finishes hdel hfit⟩

/-! ### Format 10: the frame -/

theorem format10_of_not_supplied (hs : s.surf.fit s.pixels) (hn : 0 < s.blocks) (h : ¬s.supplied10) :
    format10 s = raised .mapExhausted := by
  rw [State.supplied10_iff hn] at h
  rw [format10, (passDecided_f10Block1 s).runPass_raise (openFormat10_atLiteral hs) h]
  rfl

/-- What format 10 does from the start `r` of pass 2 on (R243, R246, R247). -/
def format10From2 (s : State) (r : Recon) : Res Recon := do
  let r ← runPass (f10Block2 s) s.blocks r
  let r ← runPass (f10Block3 s) s.blocks (r.enter .f10Pass3 r.mc)
  .ok { r with surf := swapRefs r.surf }

/-- With the data supplied, pass 1 completes and pass 2 starts at block 0. -/
theorem format10_of_supplied (hs : s.surf.fit s.pixels) (hsup : ∀ b, b < s.blocks → s.Supplies10 b) :
    ∃ r : Recon, r.AtWord10 s .f10Pass2 0 ∧ format10 s = format10From2 s r := by
  obtain ⟨r, hr, ⟨hat, -⟩, -⟩ := (passDecided_f10Block1 s).runPass_ok (openFormat10_atLiteral hs) hsup
  exact ⟨_, ⟨hat.enter .f10Pass2 0, rfl⟩, by rw [format10, hr, Res.ok_bind]; rfl⟩

theorem format10From2_of_not_bounded (hsup : ∀ b, b < s.blocks → s.Supplies10 b) (hr : r.AtWord10 s .f10Pass2 0)
    (h : ¬s.boundedFrame10) : format10From2 s r = raised .offsetOutOfBounds := by
  rw [format10From2, (passDecided_f10Block2 hsup).runPass_raise hr h]
  rfl

theorem format10From2_of_bounded (hsup : ∀ b, b < s.blocks → s.Supplies10 b) (hr : r.AtWord10 s .f10Pass2 0)
    (h : s.boundedFrame10) : ∃ r', format10From2 s r = .ok r' := by
  obtain ⟨r₂, h₂, hat₂, -⟩ := (passDecided_f10Block2 hsup).runPass_ok hr h
  obtain ⟨r₃, h₃, -⟩ := runPass_f10Block3_ok hsup (hat₂.enter .f10Pass3 r₂.mc)
  exact ⟨_, by rw [format10From2, h₂, Res.ok_bind, h₃, Res.ok_bind]⟩

end

/-- Settles O32: pass 1 is decided by what SM, DM and FD supply and pass 2 by the bounds, and a fault of pass 1 comes first. -/
theorem format10FrameOutcome : Obligations.Format10FrameOutcome := by
  intro s v hi hr hv hf
  have hn := hi.blocks_pos hv
  rw [exec_sendVideo_v10 v hv hf]
  refine ⟨fun hsup => ?_, fun hsup hbound => ?_, fun hsup hbound => ?_⟩
  · rw [format10_of_not_supplied hi.fit hn hsup]
    exact raiseIn_of_outside hr _
  all_goals
    rw [State.supplied10_iff hn] at hsup
    obtain ⟨r, hat, hpass2⟩ := format10_of_supplied hi.fit hsup
  · rw [hpass2, format10From2_of_not_bounded hsup hat hbound]
    exact raiseIn_of_outside hr _
  · obtain ⟨r', hr'⟩ := format10From2_of_bounded hsup hat hbound
    rw [← hpass2] at hr'
    have hsound : r'.Sound s := format10_sound hi.fit r' hr'
    exact ⟨r'.surf, hsound.fit, by rw [hr', ← State.commit_of_outside hr hsound.fn]; rfl⟩

end Sys2Proof.Machine
end

section
/-! What a format-10 frame leaves (O36 to O38). Passes 1 and 2 write the workspace R0 and pass 3 writes F, each at kept blocks
only; pass 3 makes F show R0 at every kept block. The surfaces that a pass leaves are stated through the addresses that it may
have written, and a skipped block has none of those. -/

namespace Sys2Proof.Machine

/-! ### Surfaces that differ on one surface within given addresses -/

/-- `y` is `x` but for bytes of the surface `dst` at addresses that meet `W`. -/
structure Surfaces.WrittenIn (W : Nat → Prop) (dst : Role) (x y : Surfaces) : Prop where
  others : ∀ k, k ≠ dst → y.get k = x.get k
  bytes : ∀ z, ¬W z → (y.get dst).byte z = (x.get dst).byte z

section
variable {W V : Nat → Prop} {dst : Role} {x y u : Surfaces}

theorem Surfaces.WrittenIn.refl (W : Nat → Prop) (dst : Role) (x : Surfaces) : x.WrittenIn W dst x :=
  ⟨fun _ _ => rfl, fun _ _ => rfl⟩

theorem Surfaces.WrittenIn.trans (h : x.WrittenIn W dst y) (h' : y.WrittenIn W dst u) : x.WrittenIn W dst u :=
  ⟨fun k hk => (h'.others k hk).trans (h.others k hk), fun a ha => (h'.bytes a ha).trans (h.bytes a ha)⟩

theorem Surfaces.WrittenIn.mono (h : x.WrittenIn W dst y) (hsub : ∀ a, W a → V a) : x.WrittenIn V dst y :=
  ⟨h.others, fun a ha => h.bytes a fun hW => ha (hsub a hW)⟩

variable {s : State} {b : Nat}

/-- R191: a literal that completes writes its block. -/
theorem copyLiteralBlock_writtenIn (hx : x.fit s.pixels) (hb : b < s.blocks) (lc : Nat) :
    Res.All (fun y => y.fit s.pixels ∧ x.WrittenIn (inBlock s.width (s.anchor b)) dst y)
      (copyLiteralBlock s dst b lc x) := by
  rcases Nat.lt_or_ge s.fd.length (lc + 64) with hl | hl
  · rw [copyLiteralBlock_raise hl]
    exact nofun
  · obtain ⟨y, hy, hfit, hframe, -, hout⟩ := copyLiteralBlock_ok (dst := dst) hx hb hl
    rw [hy]
    exact Res.all_ok ⟨hfit, hframe, hout⟩

/-- R192: an offset copy that completes writes its block, from the same surface or from another. -/
theorem copyBlockWithOffset_writtenIn (hx : x.fit s.pixels) (hb : b < s.blocks) (src : Role) (off : Int) :
    Res.All (fun y => y.fit s.pixels ∧ x.WrittenIn (inBlock s.width (s.anchor b)) dst y)
      (copyBlockWithOffset s dst src b off x) := by
  cases hin : s.inBounds (s.sourceAddr b off) with
  | false =>
    rw [copyBlockWithOffset_raise hin]
    exact nofun
  | true =>
    obtain ⟨y, hy, hfit, hframe, hself, hother⟩ := copyBlockWithOffset_ok (dst := dst) (src := src) hx hb hin
    rw [hy]
    refine Res.all_ok ⟨hfit, hframe, fun a ha => ?_⟩
    by_cases hsrc : dst = src
    · rw [hself hsrc]
      exact rowsAfter_of_unwritten fun row hrow hin => ha ⟨row, hrow, hin⟩
    · exact (hother hsrc a).2 ha

end

/-! ### The kept blocks -/

/-- `z` is an address of block `b`, and the block is not skipped. -/
def State.InKeptBlock (s : State) (b z : Nat) : Prop := skippedAt s.sm b = false ∧ inBlock s.width (s.anchor b) z

/-- `z` is an address of one of the first `n` blocks that is not skipped. -/
def State.InKept (s : State) (n z : Nat) : Prop := ∃ b, b < n ∧ s.InKeptBlock b z

section
variable {s : State} {r : Recon} {b n z : Nat} {p : Pass} {dst : Role} {k : SkipStream}

theorem State.InKept.succ (h : s.InKept n z) : s.InKept (n + 1) z := by
  obtain ⟨b, hb, hz⟩ := h
  exact ⟨b, hb.trans n.lt_succ_self, hz⟩

theorem State.inKept_succ_iff : s.InKept (n + 1) z ↔ s.InKept n z ∨ s.InKeptBlock n z := by
  simp only [State.InKept, Nat.lt_succ_iff_lt_or_eq, or_and_right, exists_or, exists_eq_left]

/-- A skipped block has no address of a kept one. -/
theorem State.not_inKept_of_skipped (hb : b < s.blocks) (hskip : skippedAt s.sm b = true)
    (hz : inBlock s.width (s.anchor b) z) : ¬s.InKept s.blocks z := by
  rintro ⟨b', hb', hkept, hz'⟩
  obtain rfl := State.block_eq_of_inBlock hb hb' hz hz'
  exact absurd (hskip.symm.trans hkept) nofun

/-! ### What a block of a pass leaves -/

/-- From `r`, at block `b` of pass `p`, the pass has come to the next block as `r'`, having written at most the bytes of `dst` at
block `b`, and none if the block is skipped. -/
structure Recon.Draws (s : State) (p : Pass) (dst : Role) (b : Nat) (r r' : Recon) : Prop where
  at10 : r'.At10 s p (b + 1)
  written : r.surf.WrittenIn (s.InKeptBlock b) dst r'.surf

/-- R215: as long as SM lasts, the flag at a block is that of the closed form. -/
theorem Recon.At10.flag_cases (hat : r.At10 s p b) (hflag : b < 16 * (s.sm.length / 2)) :
    (skippedAt s.sm b = true ∧ ∃ k, r.skip.next s.sm = .ok (true, k) ∧ k.Delivered s.sm (b + 1)) ∨
    (skippedAt s.sm b = false ∧ ∃ k, r.skip.next s.sm = .ok (false, k) ∧ k.Delivered s.sm (b + 1)) := by
  obtain ⟨k, hk, hdel⟩ := hat.delivered.next_ok hflag
  cases hskip : skippedAt s.sm b with
  | true => exact .inl ⟨rfl, k, hskip ▸ hk, hdel⟩
  | false => exact .inr ⟨rfl, k, hskip ▸ hk, hdel⟩

/-- A block of pass `p` that writes nothing, whatever it does with the map cursor. -/
theorem Recon.At10.draws_nothing {mc : Nat} (hat : r.At10 s p b) (hk : k.Delivered s.sm (b + 1)) (dst : Role) :
    r.Draws s p dst b { r with b := r.b + 1, mc := mc, wordDue := false, skip := k } :=
  ⟨hat.finishes hk hat.fit, .refl _ _ _⟩

/-- A kept block of pass `p` that writes its bytes of `dst`, whatever it does with the other two cursors. -/
theorem Recon.At10.draws_block {mc lc : Nat} {y : Surfaces} (hat : r.At10 s p b) (hk : k.Delivered s.sm (b + 1))
    (hkept : skippedAt s.sm b = false) (hfit : y.fit s.pixels)
    (hy : r.surf.WrittenIn (inBlock s.width (s.anchor b)) dst y) :
    r.Draws s p dst b { r with b := r.b + 1, mc := mc, lc := lc, wordDue := false, skip := k, surf := y } :=
  ⟨hat.finishes hk hfit, hy.mono fun _ hz => ⟨hkept, hz⟩⟩

/-- R241, R242: pass 1 writes R0. -/
theorem f10Block1_draws (hat : r.At10 s .f10Pass1 b) (hb : b < s.blocks) (hflag : b < 16 * (s.sm.length / 2)) :
    Res.All (r.Draws s .f10Pass1 .r0 b) (f10Block1 s r) := by
  obtain rfl := hat.block
  obtain ⟨-, k, hk, hdel⟩ | ⟨hkept, k, hk, hdel⟩ := hat.flag_cases hflag
  · rw [f10Block1_of_skipped hk]
    exact Res.all_ok (hat.draws_nothing hdel _)
  · rw [f10Block1_of_kept hat.pass hk]
    exact Res.all_bind fun _ => Res.all_ite
      ((copyLiteralBlock_writtenIn hat.fit hb _).bind fun _ ⟨hfit, hy⟩ =>
        Res.all_ok (hat.draws_block hdel hkept hfit hy))
      (Res.all_ok (hat.draws_nothing hdel _))

/-- R243 to R245: pass 2 writes R0. -/
theorem f10Block2_draws (hat : r.At10 s .f10Pass2 b) (hb : b < s.blocks) (hflag : b < 16 * (s.sm.length / 2)) :
    Res.All (r.Draws s .f10Pass2 .r0 b) (f10Block2 s r) := by
  obtain rfl := hat.block
  obtain ⟨-, k, hk, hdel⟩ | ⟨hkept, k, hk, hdel⟩ := hat.flag_cases hflag
  · rw [f10Block2_of_skipped hk]
    exact Res.all_ok (hat.draws_nothing hdel _)
  · rw [f10Block2_of_kept hat.pass hk]
    have hcopy (src : Role) (off : Int) :
        Res.All (r.Draws s .f10Pass2 .r0 r.b) (copyWord .r0 src off s { r with wordDue := true, skip := k }) :=
      (copyBlockWithOffset_writtenIn hat.fit hb src off).bind fun _ ⟨hfit, hy⟩ =>
        Res.all_ok (hat.draws_block hdel hkept hfit hy)
    exact Res.all_bind fun _ => Res.all_ite (Res.all_ok (hat.draws_nothing hdel _))
      (Res.all_ite (hcopy .r1 _) (hcopy .r0 _))

/-- R246: pass 3 writes F, and F shows R0 at the block if it is kept. -/
theorem f10Block3_draws (hat : r.At10 s .f10Pass3 b) (hb : b < s.blocks) (hflag : b < 16 * (s.sm.length / 2)) :
    Res.All (fun r' => r.Draws s .f10Pass3 .f b r' ∧ ∀ z, s.InKeptBlock b z → r'.surf.f.byte z = r'.surf.r0.byte z)
      (f10Block3 s r) := by
  obtain rfl := hat.block
  obtain ⟨hskip, k, hk, hdel⟩ | ⟨hkept, k, hk, hdel⟩ := hat.flag_cases hflag
  · rw [f10Block3_of_skipped hk]
    exact Res.all_ok ⟨hat.draws_nothing hdel _, fun z hz => absurd (hskip.symm.trans hz.1) nofun⟩
  · obtain ⟨y, hy, hfit, hframe, hin, hout⟩ := copyBlock_ok (dst := .f) (src := .r0) hat.fit hb nofun
    have hrefs : y.r0 = r.surf.r0 := hframe .r0 nofun
    rw [f10Block3_of_kept hk, showBlock_ok hk hy]
    exact Res.all_ok ⟨hat.draws_block hdel hkept hfit ⟨hframe, hout⟩, fun z hz => (hin z hz.2).trans (by rw [hrefs]; rfl)⟩

/-! ### What a pass leaves -/

/-- What each block makes of a property of the SendVideo in progress at its block, a pass that completes makes of it. -/
theorem runPass_all {block : Recon → Res Recon} (P : Nat → Recon → Prop) (n : Nat)
    (step : ∀ b r, b < n → P b r → Res.All (P (b + 1)) (block r)) {r : Recon} (hr : P 0 r) :
    Res.All (P n) (runPass block n r) := by
  suffices ∀ m b r, b + m = n → P b r → Res.All (P n) (runPass block m r) from this n 0 r (Nat.zero_add n) hr
  intro m
  induction m with
  | zero =>
    rintro b r rfl hP
    exact Res.all_ok hP
  | succ m ih => exact fun b r hn hP => (step b r (by omega) hP).bind fun r' => ih (b + 1) r' (by omega)

/-- From the surfaces `x`, pass `p` has come to block `b` having written at most the bytes of `dst` at kept blocks before it. -/
structure Recon.Drawn (s : State) (p : Pass) (dst : Role) (x : Surfaces) (b : Nat) (r : Recon) : Prop where
  at10 : r.At10 s p b
  written : x.WrittenIn (s.InKept b) dst r.surf

variable {x : Surfaces} {r' : Recon}

theorem Recon.At10.drawn (hat : r.At10 s p b) (dst : Role) : r.Drawn s p dst r.surf b := ⟨hat, .refl _ _ _⟩

theorem Recon.Drawn.step (h : r.Drawn s p dst x b) (hr' : r.Draws s p dst b r') : r'.Drawn s p dst x (b + 1) :=
  ⟨hr'.at10, (h.written.mono fun _ => State.InKept.succ).trans
    (hr'.written.mono fun _ hz => State.inKept_succ_iff.2 (.inr hz))⟩

/-- Passes 1 and 2: a pass whose blocks write at most their kept block of `dst`. -/
theorem runPass_drawn {block : Recon → Res Recon} (hr : r.At10 s p 0)
    (hblock : ∀ {b : Nat} {r : Recon}, r.At10 s p b → b < s.blocks → Res.All (r.Draws s p dst b) (block r)) :
    Res.All (Recon.Drawn s p dst r.surf s.blocks) (runPass block s.blocks r) :=
  runPass_all (Recon.Drawn s p dst r.surf) s.blocks
    (fun _ _ hb h => (hblock h.at10 hb).mono fun _ => h.step) (hr.drawn dst)

/-- The SendVideo in progress shows R0 at the kept blocks before `b` (R246). -/
def Recon.Shows (s : State) (b : Nat) (r : Recon) : Prop := ∀ z, s.InKept b z → r.surf.f.byte z = r.surf.r0.byte z

/-- A block of pass 3 that leaves itself shown leaves those before it shown: the bytes that it did not write are as they were. -/
theorem Recon.Shows.step (h : r.Shows s b) (hr' : r.Draws s .f10Pass3 .f b r')
    (hown : ∀ z, s.InKeptBlock b z → r'.surf.f.byte z = r'.surf.r0.byte z) : r'.Shows s (b + 1) := by
  intro z hz
  by_cases hz' : s.InKeptBlock b z
  · exact hown z hz'
  · have hf : r'.surf.f.byte z = r.surf.f.byte z := hr'.written.bytes z hz'
    have h0 : r'.surf.r0 = r.surf.r0 := hr'.written.others .r0 nofun
    rw [hf, h0]
    exact h z ((State.inKept_succ_iff.1 hz).resolve_right hz')

theorem runPass_f10Block3_drawn (hsm : s.blocks ≤ 16 * (s.sm.length / 2)) (hr : r.At10 s .f10Pass3 0) :
    Res.All (fun r' => r'.Drawn s .f10Pass3 .f r.surf s.blocks ∧ r'.Shows s s.blocks)
      (runPass (f10Block3 s) s.blocks r) := by
  refine runPass_all (fun b r' => r'.Drawn s .f10Pass3 .f r.surf b ∧ r'.Shows s b) s.blocks
    (fun b q hb ⟨hdrawn, hshown⟩ => ?_) ⟨hr.drawn .f, fun z ⟨b, hb, _⟩ => absurd hb b.not_lt_zero⟩
  exact (f10Block3_draws hdrawn.at10 hb (hb.trans_le hsm)).mono fun _ ⟨hdraws, hown⟩ =>
    ⟨hdrawn.step hdraws, hshown.step hdraws hown⟩

/-! ### What a frame leaves -/

/-- What a format-10 frame makes of the surfaces `x`: the references are swapped (R247, R250), F and the workspace, now R1, are
written at kept blocks only (R248), and there F shows the workspace (R246). -/
structure Surfaces.After10 (s : State) (x y : Surfaces) : Prop where
  rotated : y.r0 = x.r1
  image : ∀ z, ¬s.InKept s.blocks z → y.f.byte z = x.f.byte z
  workspace : ∀ z, ¬s.InKept s.blocks z → y.r1.byte z = x.r0.byte z
  shows : ∀ z, s.InKept s.blocks z → y.f.byte z = y.r1.byte z

/-- The surfaces after the frame: `x'` are those after passes 1 and 2, `y` those after pass 3. -/
theorem Surfaces.after10_swapRefs {x' y : Surfaces} (h12 : x.WrittenIn (s.InKept s.blocks) .r0 x')
    (h3 : x'.WrittenIn (s.InKept s.blocks) .f y) (hshown : ∀ z, s.InKept s.blocks z → y.f.byte z = y.r0.byte z) :
    x.After10 s (swapRefs y) where
  rotated := (h3.others .r1 nofun).trans (h12.others .r1 nofun)
  image z hz := (h3.bytes z hz).trans (congrArg (Memory.byte · z) (h12.others .f nofun))
  workspace z hz := (congrArg (Memory.byte · z) (h3.others .r0 nofun)).trans (h12.bytes z hz)
  shows := hshown

theorem format10_after (hs : s.surf.fit s.pixels) (hsm : s.blocks ≤ 16 * (s.sm.length / 2)) :
    Res.All (fun r => s.surf.After10 s r.surf) (format10 s) := by
  have hstart : (openFormat10 s).At10 s .f10Pass1 0 := (openFormat10_atLiteral hs).1.1
  refine (runPass_drawn hstart fun hat hb => f10Block1_draws hat hb (hb.trans_le hsm)).bind fun r₁ h₁ => ?_
  refine (runPass_drawn (h₁.at10.enter .f10Pass2 0) fun hat hb => f10Block2_draws hat hb (hb.trans_le hsm)).bind
    fun r₂ h₂ => ?_
  refine (runPass_f10Block3_drawn hsm (h₂.at10.enter .f10Pass3 r₂.mc)).bind fun r₃ ⟨h₃, hshown⟩ => ?_
  exact Res.all_ok (Surfaces.after10_swapRefs (h₁.written.trans h₂.written) h₃.written hshown)

/-- R221, R249: a format-10 frame that completes has committed what the reconstructor left, so SM held its flags. -/
theorem exec_sendVideo_v10_after {t : State} {v : SendVideoFields} (hi : s.Inv) (hf : s.fmt = .v10)
    (hv : s.vidInit = true) (ht : exec (.sendVideo (.fields v)) s = .next t) (hfn : t.frameNo = s.frameNo + 1) :
    s.surf.After10 s t.surf := by
  rw [exec_sendVideo_v10 v hv hf] at ht
  obtain ⟨r, hr, rfl⟩ | ⟨c, -, rfl⟩ := finishVideo_next ht
  · have hsup : s.supplied10 := by
      by_contra h
      exact absurd (hr.symm.trans (format10_of_not_supplied hi.fit (hi.blocks_pos hv) h)) nofun
    exact format10_after hi.fit hsup.1 r hr
  · rw [State.raise_frameNo] at hfn
    omega

/-! ### A frame of skipped blocks -/

/-- A pass over skipped blocks leaves the surfaces, if `block` does no more at a skipped block than take its flag. -/
theorem runPass_of_skipped {block : Recon → Res Recon} (hsm : s.blocks ≤ 16 * (s.sm.length / 2))
    (hall : ∀ b, b < s.blocks → skippedAt s.sm b = true)
    (hblock : ∀ {r : Recon} {k : SkipStream}, r.skip.next s.sm = .ok (true, k) →
      block r = .ok { r with b := r.b + 1, wordDue := false, skip := k })
    (hr : r.At10 s p 0) : ∃ r', runPass block s.blocks r = .ok r' ∧ r'.At10 s p s.blocks ∧ r'.surf = r.surf := by
  refine runPass_ok (fun b r' => r'.At10 s p b ∧ r'.surf = r.surf) s.blocks (fun b q hb ⟨hat, hsurf⟩ => ?_) ⟨hr, rfl⟩
  obtain ⟨k, hk, hdel⟩ := hat.delivered.next_ok (hb.trans_le hsm)
  rw [hall b hb] at hk
  exact ⟨_, hblock hk, hat.finishes hdel hat.fit, hsurf⟩

/-- R247, R248: with every block skipped, the three passes complete and the references are swapped. -/
theorem format10_of_skipped (hs : s.surf.fit s.pixels) (hsm : s.blocks ≤ 16 * (s.sm.length / 2))
    (hall : ∀ b, b < s.blocks → skippedAt s.sm b = true) :
    ∃ r, format10 s = .ok r ∧ r.surf = swapRefs s.surf := by
  have hstart : (openFormat10 s).At10 s .f10Pass1 0 := (openFormat10_atLiteral hs).1.1
  obtain ⟨r₁, h₁, hat₁, hsurf₁⟩ := runPass_of_skipped hsm hall f10Block1_of_skipped hstart
  obtain ⟨r₂, h₂, hat₂, hsurf₂⟩ := runPass_of_skipped hsm hall f10Block2_of_skipped (hat₁.enter .f10Pass2 0)
  obtain ⟨r₃, h₃, -, hsurf₃⟩ := runPass_of_skipped hsm hall f10Block3_of_skipped (hat₂.enter .f10Pass3 r₂.mc)
  have hsurf : r₃.surf = s.surf := hsurf₃.trans (hsurf₂.trans hsurf₁)
  exact ⟨_, by rw [format10, h₁, Res.ok_bind, h₂, Res.ok_bind, h₃, Res.ok_bind], congrArg swapRefs hsurf⟩

end

/-! ### The obligations -/

/-- Settles O36: a skipped block has no address that the frame may have written. -/
theorem format10RotatesReferencesAndKeepsSkippedBlocks : Obligations.Format10RotatesReferencesAndKeepsSkippedBlocks := by
  intro s t v hi hf hv ht hfn
  have hafter := exec_sendVideo_v10_after hi hf hv ht hfn
  refine ⟨hafter.rotated, fun b z hb hskip hz => ?_⟩
  have hout : ¬s.InKept s.blocks z := State.not_inKept_of_skipped hb hskip hz
  exact ⟨hafter.image z hout, hafter.workspace z hout⟩

/-- Settles O37: after pass 3, F shows R0 at each kept block, and the swap makes that R1. -/
theorem format10ShowsItsWorkspace : Obligations.Format10ShowsItsWorkspace := by
  intro s t v hi hf hv ht hfn b z hb hkept hz
  exact (exec_sendVideo_v10_after hi hf hv ht hfn).shows z ⟨b, hb, hkept, hz⟩

/-- Settles O38: no pass writes a surface, so the frame commits the swapped references and the next frame number. -/
theorem format10AllSkippedFrameOnlySwaps : Obligations.Format10AllSkippedFrameOnlySwaps := by
  intro s v hi hr hv hf hsm hall
  obtain ⟨r, hrun, hsurf⟩ := format10_of_skipped hi.fit hsm hall
  have hsound : r.Sound s := format10_sound hi.fit r hrun
  rw [exec_sendVideo_v10 v hv hf, hrun]
  show Host.Outcome.next (s.commit r) = _
  rw [State.commit_of_outside hr hsound.fn, hsurf]
  rfl

end Sys2Proof.Machine
end

section
/-! A faulting step (O11): the fault is taken in the state that the step began in. -/

namespace Sys2Proof.Machine

/-- Settles O11: no completion latches ERR, and outside a SendVideo a fault changes nothing else. -/
theorem faultingStepChangesOnlyErr : Obligations.FaultingStepChangesOnlyErr := by
  intro s t hr h herr
  obtain ⟨c, rfl⟩ | ⟨op, p, -, hc⟩ := step_record_next hr h
  · rw [State.raise_err, State.raise_of_outside hr]
  · obtain ⟨-, -, hs⟩ := State.enabled_iff.1 (enabled_of_step_next h)
    exact absurd (hc.err_eq.trans hs) herr

end Sys2Proof.Machine
end

section
/-! What the host commands and the accessors return (O55, O56, O57, O59, O60). A drain reports a SendVideo exactly when
FRAME_NO has grown in it, since a SendVideo that completes is the one record that counts a frame; the loops of `load`
and `advanceFrame` pass on what their drains report. -/

namespace Sys2Proof.Machine

/-! ### load -/

section
variable {s t : State}

/-- R26: once loaded, a source is bound. -/
theorem State.Running.src_eq (h : s.Running) : s.src = some s.source := by
  cases hsrc : s.src with
  | some src => simp [State.source, hsrc]
  | none =>
    obtain ⟨hlow, hhigh⟩ := h.inv.cursor h.loaded
    simp only [State.source, hsrc, Option.getD_none, List.length_nil] at hhigh
    omega

/-- The exit of the loop of `load` (R260): with ok, DONE is set or a video packet is at hand. -/
theorem loadLoop_ok (n : Nat) (h : s.Running) (hok : loadLoop n s = (t, .ok)) :
    t.Running ∧ t.source = s.source ∧ (t.done = true ∨ Config.kindVideo ≤ t.pktKind.toNat) := by
  induction n generalizing s with
  | zero => cases hok
  | succ n ih =>
    unfold loadLoop at hok
    split at hok
    · next hk =>
      have hdrain := drainPacket_fuel_returns h hk.1
      split at hok
      · next u sv hu =>
        rw [hu] at hdrain
        obtain ⟨hrun, hsrc, -⟩ := hdrain
        obtain ⟨ht, htsrc, hexit⟩ := ih hrun hok
        exact ⟨ht, htsrc.trans hsrc, hexit⟩
      · cases hok
      · cases hok
    · next hk =>
      cases hok
      exact ⟨h, rfl, (Bool.eq_false_or_eq_true t.done).imp_right fun hd =>
        Nat.le_of_not_lt fun hlt => hk ⟨hd, hlt⟩⟩

/-- With ok, `load` has reached its loop: the header and the first packet header are there (R130, R131). -/
theorem loadFrom_ok (h : loadFrom s = (t, .ok)) :
    29 ≤ s.source.length ∧ loadLoop s.beforeDrain.fuel s.beforeDrain = (t, .ok) := by
  rcases Nat.lt_or_ge s.source.length 25 with h25 | h25
  · rw [loadFrom_of_short_header h25] at h; cases h
  by_cases hh : s.source.take 25 = headerBytes
  · rcases Nat.lt_or_ge s.source.length 29 with h29 | h29
    · rw [loadFrom_of_short_packet h25 hh h29] at h; cases h
    · exact ⟨h29, loadFrom_of_packet hh h29 ▸ h⟩
  · rw [loadFrom_of_bad_header h25 hh] at h; cases h

/-- Settles O55, by the exit of the loop. -/
theorem loadDrainsConfigurationPackets : Obligations.LoadDrainsConfigurationPackets := by
  intro src t h
  obtain ⟨h29, hloop⟩ := loadFrom_ok (load_eq_loadFrom src ▸ h)
  have hinv : (State.reset.bindSource src).Inv := State.Inv.bindSource resetMeetsInvariant rfl rfl src
  obtain ⟨ht, hsrc, hexit⟩ := loadLoop_ok _ (hinv.beforeDrain_running rfl rfl h29) hloop
  exact ⟨ht.src_eq.trans (congrArg some hsrc), ht.loaded, ht.err, hexit⟩

/-! ### advanceFrame: how a step and a drain count frames (R28) -/

/-- R28, R220: SendVideo is the one opcode that counts a frame. -/
theorem State.Completes.frameNo_eq {op : Opcode} {p : List Byte} (h : s.Completes op p t) (hs : s.surf.fit s.pixels) :
    t.frameNo = s.frameNo + if op = .sendVideo then 1 else 0 := by
  cases h with
  | sendVideo _ _ hf =>
    obtain ⟨-, hr⟩ | ⟨-, hr⟩ := hf
    · exact (format6_sound hs _ hr).fn
    · exact (format10_sound hs _ hr).fn
  | _ => exact (Int.add_zero _).symm

/-- A step counts a frame exactly when it completes a SendVideo. -/
theorem State.Running.step_frameNo (h : s.Running) (ht : Machine.step s = .next t) :
    t.frameNo = s.frameNo + if t.err = none ∧ s.tagAt = Opcode.sendVideo.tag then 1 else 0 := by
  obtain ⟨c, rfl⟩ | ⟨op, p, hh, hc⟩ := step_record_next h.outside ht
  · simp
  · have htag : s.tagAt = Opcode.sendVideo.tag ↔ op = .sendVideo := by
      rw [State.tagAt, ← hh.tag, Opcode.tag_eq_iff]
    rw [hc.frameNo_eq h.inv.fit]
    simp only [hc.err_eq, h.err, htag, true_and]

/-- What a drain from `s` tells of the frames it has counted, `sv` saying whether it has executed a SendVideo before
(R137). That it is not stuck is `drainPacket_returns`. -/
def Drain.Counts (s : State) (sv : Bool) : Drain → Prop
  | .packet t sv' => s.frameNo ≤ t.frameNo ∧ (sv' = true ↔ sv = true ∨ s.frameNo < t.frameNo)
  | .raised t c => s.frameNo ≤ t.frameNo ∧ t.err = some c
  | .stuck _ => True

/-- A drain goes on after a step that counts a frame exactly when its record is a SendVideo. -/
theorem Drain.Counts.of_step {d : Drain} {sv b : Bool} (h : d.Counts t (sv || b))
    (hb : t.frameNo = s.frameNo + if b = true then 1 else 0) : d.Counts s sv := by
  have hle : s.frameNo ≤ t.frameNo := by rw [hb]; split <;> omega
  cases d with
  | packet u sv' =>
    obtain ⟨hu, hsv⟩ := h
    refine ⟨hle.trans hu, ?_⟩
    rw [hsv, Bool.or_eq_true, or_assoc]
    refine or_congr_right ?_
    cases b with
    | true =>
      have hlt : s.frameNo < u.frameNo := by simp only [if_true] at hb; omega
      simp only [hlt, true_or]
    | false =>
      have heq : t.frameNo = s.frameNo := by simpa using hb
      simp only [heq, Bool.false_eq_true, false_or]
  | raised u c => exact ⟨hle.trans h.1, h.2⟩
  | stuck u => trivial

theorem drainPacket_counts (n : Nat) (sv : Bool) (h : s.Running) (hd : s.done = false) :
    (drainPacket n sv s).Counts s sv := by
  induction n generalizing s sv with
  | zero => trivial
  | succ n ih =>
    obtain ⟨t, ht, -, -, hrun⟩ := h.step hd
    have hfn := h.step_frameNo ht
    simp only [drainPacket, ht]
    cases herr : t.err with
    | some c =>
      simp only [herr, reduceCtorEq, false_and, if_false] at hfn
      exact ⟨by omega, herr⟩
    | none =>
      obtain ⟨hrun, -, -, hdone⟩ := hrun herr
      have hb : t.frameNo = s.frameNo + if (s.tagAt == Opcode.sendVideo.tag) = true then 1 else 0 := by
        simpa only [herr, true_and, beq_iff_eq] using hfn
      dsimp only
      split
      · have hend : (Drain.packet t (sv || s.tagAt == Opcode.sendVideo.tag)).Counts t
            (sv || s.tagAt == Opcode.sendVideo.tag) := ⟨le_refl _, by simp⟩
        exact hend.of_step hb
      · next htag =>
        have htd : t.done = false := Bool.eq_false_iff.2 fun hx => htag (.inl (hdone.1 hx))
        exact (ih _ hrun htd).of_step hb

/-! ### advanceFrame: its results -/

/-- What the result of an `advanceFrame` from `s` tells of the state it leaves (R261). That it is not stuck is
`advanceFrame_returned`. -/
def AdvanceTells (s : State) : State × HostResult → Prop
  | (t, .ok) => t.err = none ∧ s.frameNo < t.frameNo
  | (t, .endOfStream) => t.err = none ∧ t.frameNo = s.frameNo ∧ (s.loaded = true → t.done = true)
  | (t, .fault c) => t.err = some c ∧ s.frameNo ≤ t.frameNo
  | (_, .stuck) => True

/-- Packets without a SendVideo make no difference to what is told. -/
theorem AdvanceTells.of_frameNo_eq {x : State × HostResult} (h : AdvanceTells t x) (ht : t.Running)
    (hk : t.frameNo = s.frameNo) : AdvanceTells s x := by
  obtain ⟨u, x⟩ := x
  cases x with
  | ok => exact ⟨h.1, hk ▸ h.2⟩
  | endOfStream =>
    obtain ⟨herr, hfn, hdone⟩ := h
    exact ⟨herr, hfn.trans hk, fun _ => hdone ht.loaded⟩
  | fault c => exact ⟨h.1, hk ▸ h.2⟩
  | stuck => trivial

theorem advanceLoop_tells (n : Nat) (h : s.Running) : AdvanceTells s (advanceLoop n s) := by
  induction n generalizing s with
  | zero => trivial
  | succ n ih =>
    unfold advanceLoop
    split
    · next hd => exact ⟨h.err, rfl, fun _ => hd⟩
    · next hd =>
      have hd : s.done = false := Bool.eq_false_iff.2 hd
      have hret := drainPacket_fuel_returns h hd
      have hcount := drainPacket_counts s.fuel false h hd
      cases hdrain : drainPacket s.fuel false s with
      | packet t sv =>
        rw [hdrain] at hret hcount
        obtain ⟨hrun, -, -⟩ := hret
        obtain ⟨hle, hsv⟩ := hcount
        cases sv with
        | true => exact ⟨hrun.err, by simpa using hsv⟩
        | false =>
          have hk : t.frameNo = s.frameNo := by
            have hnot : ¬s.frameNo < t.frameNo := by simpa using hsv
            omega
          exact (ih hrun).of_frameNo_eq hrun hk
      | raised t c =>
        rw [hdrain] at hcount
        exact ⟨hcount.2, hcount.1⟩
      | stuck t => trivial

/-! #### The results that run no step (R261, R265, R266) -/

theorem advanceFrame_of_err {c : ErrCode} (h : s.err = some c) : advanceFrame s = (s, .fault c) := by
  simp only [advanceFrame, h]

theorem advanceFrame_of_loaded (h : s.err = none) (hl : s.loaded = true) : advanceFrame s = advanceLoop s.fuel s := by
  simp only [advanceFrame, h, if_pos hl]

theorem advanceFrame_of_unloaded (h : s.err = none) (hl : s.loaded = false) : advanceFrame s = (s, .endOfStream) := by
  simp only [advanceFrame, h, hl, Bool.false_eq_true, if_false]

theorem advanceLoop_of_done (h : s.done = true) (n : Nat) : advanceLoop (n + 1) s = (s, .endOfStream) := by
  simp only [advanceLoop, if_pos h]

/-- Settles O56. -/
theorem idleAdvanceFrame : Obligations.IdleAdvanceFrame := fun _ =>
  ⟨fun _ => advanceFrame_of_err,
    fun herr hl hd => (advanceFrame_of_loaded herr hl).trans (advanceLoop_of_done hd _),
    advanceFrame_of_unloaded⟩

theorem advanceFrame_tells (hi : s.Inv) (hr : s.recon = none) (herr : s.err = none) :
    AdvanceTells s (advanceFrame s) := by
  cases hl : s.loaded with
  | true => rw [advanceFrame_of_loaded herr hl]; exact advanceLoop_tells _ ⟨hi, hr, hl, herr⟩
  | false => rw [advanceFrame_of_unloaded herr hl]; exact ⟨herr, rfl, fun h => absurd (hl.symm.trans h) nofun⟩

end

/-- Settles O57: what is told of the three results excludes one another, so each is told by its own. -/
theorem advanceFrameCountsFrames : Obligations.AdvanceFrameCountsFrames := by
  intro s t x hi hr herr h
  have htells := advanceFrame_tells hi hr herr
  have hret := (advanceFrame_returned hi hr).1
  rw [h] at htells hret
  cases x with
  | ok =>
    obtain ⟨ht, hfn⟩ := htells
    simp [ht, hfn, hfn.le, hfn.ne']
  | endOfStream =>
    obtain ⟨ht, hfn, hdone⟩ := htells
    simpa [ht, hfn] using hdone
  | fault c =>
    obtain ⟨ht, hfn⟩ := htells
    simp [ht, hfn]
  | stuck => exact absurd rfl hret

/-- Settles O59. -/
theorem clearAndDestroy : Obligations.ClearAndDestroy := fun _ => ⟨rfl, rfl⟩

/-! ### The accessors (R262) -/

section
variable {s : State}

theorem State.Inv.width_of_unconfigured (hi : s.Inv) (hv : s.vidInit = false) : s.width = 0 := by
  simp [State.width, (hi.vidOff hv).1]

theorem State.Inv.height_of_unconfigured (hi : s.Inv) (hv : s.vidInit = false) : s.height = 0 := by
  simp [State.height, (hi.vidOff hv).2]

/-- R35: F has W*H bytes. -/
theorem currentSurface_eq (hi : s.Inv) :
    currentSurface s = ((List.range (s.width * s.height)).map s.surf.f.byte, s.width, s.height) := by
  rw [currentSurface, show s.surf.f.len = s.width * s.height from (hi.fit .f).2]

/-- The geometry registers are 0 before InitVideo, so the unset answer is no case of its own. -/
theorem dimensions_eq (hi : s.Inv) : dimensions s = (s.width, s.height) := by
  unfold dimensions
  split
  · rfl
  · next hv =>
    have hv : s.vidInit = false := Bool.eq_false_iff.2 hv
    rw [hi.width_of_unconfigured hv, hi.height_of_unconfigured hv]

/-- R114: the rate is the rational whose product with the registers is 1000000. -/
theorem frameRateOf_mul {rate : Word32} {subdiv : Word16} (h : rate.toNat * subdiv.toNat ≠ 0) :
    frameRateOf rate subdiv * (rate.toNat * subdiv.toNat : Nat) = 1000000 :=
  div_mul_cancel₀ _ (Nat.cast_ne_zero.2 h)

end

/-- Settles O60, accessor by accessor. -/
theorem accessorValues : Obligations.AccessorValues := by
  intro s hi
  refine ⟨currentSurface_eq hi, rfl, rfl, rfl, dimensions_eq hi, fun hv => ⟨?_, ?_⟩, fun ht => ?_, fun ht => ?_,
    fun ha => ?_, fun ha => ?_⟩
  · rw [currentSurface_eq hi, hi.width_of_unconfigured hv, hi.height_of_unconfigured hv]; rfl
  · rw [dimensions_eq hi, hi.width_of_unconfigured hv, hi.height_of_unconfigured hv]
  · rw [frameRate, if_neg (by simp [ht])]
  · exact ⟨_, if_pos ht, frameRateOf_mul (hi.timer ht)⟩
  · rw [audioStream, if_neg (by simp [ha])]
  · exact if_pos ha

end Sys2Proof.Machine
end
